-- ==== Sys2Proof/Word.lean ====
section
/-! DEFINITION. The words of the block: bytes, the operation code, the clock frequency, and the
slave's answer bit. Everything the spec computes with is an unsigned 8-bit number (R9); the only
other widths are the 5-bit operation code and the 32-bit frequency of the host port (R91). -/

namespace Sys2Proof

/-- Every stored value and every operand is a `u8` unless a rule says otherwise (R9). -/
abbrev Byte := BitVec 8

/-- The operation code on the host port, `op_sel[4:0]` (R91). -/
abbrev OpSel := BitVec 5

/-- A clock frequency in Hz, `arg_hz[31:0]` (R91). -/
abbrev Hz := BitVec 32

/-- The answer bit that follows every address and data byte (R10). -/
inductive Ack where
  | ack
  | nack
  deriving DecidableEq, Repr, Inhabited

end Sys2Proof
end

