-- ==== Sys2Proof/Config.lean ====
section
/-! DEFINITION. What is fixed for one block and what the spec leaves free (R7).

* the parameters whose value the source states are plain constants here;
* the parameters with a general-knowledge default, a default chosen by the spec, or none at all
  (`DEV_ADDR`) are the fields of `Params`; a state carries one `Params`, no rule matches on a
  default value (R103), and a statement about every state is a statement about every parameter;
* the free values (the slave's answers, the bus timing, what an unwritten register holds) are
  opaque constants: no proof can see them. -/

namespace Sys2Proof

/-! ## Parameters whose value is the source's (R7, R80) -/

/-- Register select, bit 0 of the expander byte. -/
def Config.rs : Byte := 0x01#8
/-- Read/write, bit 1 of the expander byte. -/
def Config.rw : Byte := 0x02#8
/-- Enable strobe, bit 2 of the expander byte. -/
def Config.e : Byte := 0x04#8
/-- Backlight, bit 3 of the expander byte. -/
def Config.bl : Byte := 0x08#8
/-- `T_POWER` in µs (R230). -/
def Config.tPower : Nat := 40000
/-- `T_RESET1` in µs (R230). -/
def Config.tReset1 : Nat := 4500
/-- `T_RESET2` in µs (R230). -/
def Config.tReset2 : Nat := 150
/-- `T_SETTLE` in µs (R219, R230). -/
def Config.tSettle : Nat := 100
/-- `MAX_ROWS` (R26). -/
def Config.maxRows : Nat := 4
/-- `ROW1_BASE`, the DDRAM start address of the second row (R27). -/
def Config.row1Base : Byte := 0x40#8
/-- `CGRAM_SLOT_MASK` (R172). -/
def Config.cgramSlotMask : Byte := 0x07#8
/-- `GLYPH_ROW_MASK` (R172). -/
def Config.glyphRowMask : Byte := 0x1F#8
/-- `GLYPH_ROWS` (R172). -/
def Config.glyphRows : Nat := 8
/-- The font bit of the function-set command, bit 2 (R29, R87). The block leaves it at the parameter
`fontDefault`. -/
def Config.fontBit : Byte := 0x04#8

/-! ## The parameter record -/

/-- How the BL line is driven in the second byte of a push, `PUSH_LO_BL` (R7, C2). -/
inductive PushLoBl where
  /-- BL as in the first byte, the spec's resolution. -/
  | follow
  /-- BL forced low, the reading the spec rejects and keeps as a parameter. -/
  | low
  deriving DecidableEq, Repr

/-- The parameters of R7 whose number the source does not state. -/
structure Params where
  cmdClearDisplay   : Byte
  cmdEntryModeSet   : Byte
  cmdDisplayControl : Byte
  cmdFunctionSet    : Byte
  cmdSetCgramAddr   : Byte
  cmdSetDdramAddr   : Byte
  leftEntry         : Byte
  shiftIncrement    : Byte
  shiftDecrement    : Byte
  displayOn         : Byte
  cursorOn          : Byte
  blinkOn           : Byte
  mode8Bit          : Byte
  mode4Bit          : Byte
  twoLine           : Byte
  fontDefault       : Byte
  dirMask           : Byte
  terminator        : Byte
  /-- `DEV_ADDR`, OPEN in the spec (D7). -/
  devAddr           : Byte
  /-- `MAX_ATTEMPTS`; `none` is ∞ (D11). -/
  maxAttempts       : Option Nat
  /-- `RETRY_STOP` (D12). -/
  retryStop         : Bool
  /-- `PUSH_LO_BL` (D8). -/
  pushLoBl          : PushLoBl
  deriving DecidableEq, Repr

/-- `bus.timing`: "configured clock-prescale/divisor values" (R21). The source gives neither the
formula nor the widths, so the two values are plain numbers. -/
structure BusTiming where
  prescale : Nat
  divisor  : Nat
  deriving DecidableEq, Repr, Inhabited

/-! ## Free values -/

/-- `timingOf`, uninterpreted (R7, R21, D22). -/
opaque Config.timingOf : Hz → BusTiming

/-- `DEV_ADDR` of the block at hand: OPEN, no default (R7, D7). -/
opaque Config.devAddr : Byte

/-- `SlaveAck`: the answer the environment gives to the `n`-th byte sent, under no law (R13). -/
opaque Config.slaveAck : Nat → Ack

/-- `SlaveByte`: the `n`-th byte the slave sends, under no law (R13). -/
opaque Config.slaveByte : Nat → Byte

/-- What `bus.clockHz` holds before FF_INIT: R39 says unwritten and forbids picking a number. -/
opaque Config.unwrittenClockHz : Hz
/-- What `bus.timing` holds before FF_INIT (R39). -/
opaque Config.unwrittenTiming : BusTiming
/-- What `backlightOn` holds before LCD_INIT (R39). -/
opaque Config.unwrittenBacklightOn : Bool
/-- What `columnCount` holds before LCD_INIT (R39). -/
opaque Config.unwrittenColumnCount : Byte
/-- What `lineCount` holds before LCD_INIT (R39). -/
opaque Config.unwrittenLineCount : Byte
/-- What `rowOffsets[i]` holds before LCD_INIT (R39). -/
opaque Config.unwrittenRowOffset : Fin 4 → Byte
/-- What `functionFlags` holds before LCD_INIT (R39). -/
opaque Config.unwrittenFunctionFlags : Byte
/-- What `controlFlags` holds before LCD_INIT (R39). -/
opaque Config.unwrittenControlFlags : Byte
/-- What `entryModeFlags` holds before LCD_INIT (R39). -/
opaque Config.unwrittenEntryModeFlags : Byte

/-! ## Defaults and constraints -/

/-- The defaults of R7: general knowledge (GK1 to GK4), the spec's choices (D8, D11, D12), and the
open device address. -/
def Config.defaults : Params where
  cmdClearDisplay   := 0x01#8
  cmdEntryModeSet   := 0x04#8
  cmdDisplayControl := 0x08#8
  cmdFunctionSet    := 0x20#8
  cmdSetCgramAddr   := 0x40#8
  cmdSetDdramAddr   := 0x80#8
  leftEntry         := 0x02#8
  shiftIncrement    := 0x01#8
  shiftDecrement    := 0x00#8
  displayOn         := 0x04#8
  cursorOn          := 0x02#8
  blinkOn           := 0x01#8
  mode8Bit          := 0x10#8
  mode4Bit          := 0x00#8
  twoLine           := 0x08#8
  fontDefault       := 0x00#8
  dirMask           := 0x01#8
  terminator        := 0x00#8
  devAddr           := Config.devAddr
  maxAttempts       := none
  retryStop         := true
  pushLoBl          := .follow

/-- R112 does not admit a finite `MAX_ATTEMPTS` together with `RETRY_STOP = false`. -/
def Params.retryAdmitted (p : Params) : Bool :=
  p.maxAttempts.isNone || p.retryStop

/-- The constraints the source itself puts on the command numbers (R103). -/
def Params.numbersAdmitted (p : Params) : Bool :=
  p.cmdSetDdramAddr == 0x80#8
    && (p.cmdSetCgramAddr == 0x40#8 || p.cmdSetCgramAddr == 0x80#8)
    && p.cmdSetCgramAddr != p.cmdSetDdramAddr
    && (p.cmdFunctionSet ||| p.mode8Bit) &&& 0xF0#8
        != (p.cmdFunctionSet ||| p.mode4Bit) &&& 0xF0#8

/-- Each flag of the two toggled registers is one bit, as the spec calls them (R30, R31, R154). -/
abbrev Params.FlagsAreBits (p : Params) : Prop :=
  ∀ mask ∈ [p.leftEntry, p.shiftIncrement, p.displayOn, p.cursorOn, p.blinkOn],
    ∃ k < 8, mask = 1#8 <<< k

/-- A configuration the spec admits. -/
def Params.admitted (p : Params) : Bool :=
  p.retryAdmitted && p.numbersAdmitted

end Sys2Proof
end

