-- ==== Sys2Proof/Syntax.lean ====
section
/-! DEFINITION. The instructions: one constructor per row of the opcode table, in its order. The
first twenty-four are the host operations of R92, the rest are the nine byte formats of the
output side (R80 to R90, R100). A boolean operand is already one bit here (R93). -/

namespace Sys2Proof

inductive Instr where
  -- frame formatter (R110 to R116)
  | ffInit (clockHz : Hz)
  | start (address : Byte)
  | startWait (address : Byte)
  | repStart (address : Byte)
  | writeByte (data : Byte)
  | readByte (requestAck : Bool)
  | stop
  -- nibble operations (R130 to R133)
  | push (x : Byte)
  | cmd4 (cmd : Byte)
  | cmd8 (cmd : Byte)
  | write (c : Byte)
  -- driver operations (R140, R151 to R160, R170 to R172)
  | lcdInit (columns rows : Byte)
  | clear
  | setCursor (col row : Byte)
  | setCursorRaw (col row : Byte)
  | display (on : Bool)
  | cursor (on : Bool)
  | blink (on : Bool)
  | direction (leftToRight : Bool)
  | autoshift (on : Bool)
  | backlight (on : Bool)
  | print (str : List Byte)
  | printChar (c : Byte)
  | createChar (location : Byte) (bitmap : List Byte)
  -- output-side byte formats (R80, R84 to R90, R100): the bytes the operations send
  | xb (nibble : BitVec 4) (bl e rw rs : Bool)
  | hcClear
  | hcEntryMode (left shift : Bool)
  | hcDispCtrl (disp curs blnk : Bool)
  | hcFuncSet (eight two font : Bool)
  | hcSetCgram (slot : BitVec 3)
  | hcSetDdram (addr : BitVec 7)
  | hd (c : Byte)
  | ab (addr : BitVec 7) (dir : Bool)
  deriving DecidableEq, Repr

/-- The host operations of R92, as against the output-side byte formats. -/
def Instr.isHostOp : Instr → Bool
  | .ffInit _ | .start _ | .startWait _ | .repStart _ | .writeByte _ | .readByte _ | .stop
  | .push _ | .cmd4 _ | .cmd8 _ | .write _
  | .lcdInit _ _ | .clear | .setCursor _ _ | .setCursorRaw _ _
  | .display _ | .cursor _ | .blink _ | .direction _ | .autoshift _ | .backlight _
  | .print _ | .printChar _ | .createChar _ _ => true
  | .xb _ _ _ _ _ | .hcClear | .hcEntryMode _ _ | .hcDispCtrl _ _ _ | .hcFuncSet _ _ _
  | .hcSetCgram _ | .hcSetDdram _ | .hd _ | .ab _ _ => false

/-- One operation as presented on the host command port (R91). Ports an operation does not list
are ignored (R93). -/
structure PortRecord where
  opSel : OpSel
  argA  : Byte
  argB  : Byte
  argHz : Hz
  str   : List Byte
  deriving DecidableEq, Repr

/-- One byte of the output side, in the format its place in the transaction gives it. -/
inductive OutWord where
  /-- XB: a data byte as the expander presents it on its eight lines (R80). -/
  | xb (byte : Byte)
  /-- HC: a controller byte sent with RS = 0 (R83). -/
  | hc (byte : Byte)
  /-- HD: a controller byte sent with RS = 1 (R100). -/
  | hd (byte : Byte)
  /-- AB: the byte sent after a start condition (R90). -/
  | ab (byte : Byte)
  deriving DecidableEq, Repr

/-- The words of an instruction: a record of the host port or a byte of the output side. -/
inductive CodeWord where
  | port (record : PortRecord)
  | out (word : OutWord)
  deriving DecidableEq, Repr

end Sys2Proof
end

