-- ==== Sys2Proof/WellFormed.lean ====
section
/-! DEFINITION. Operand checks on instructions as syntax. Widths are in the types already; what is
left are the operand values the spec refuses whatever the state (R140, R172) and the function-set
bytes the block never builds (R87). -/

namespace Sys2Proof

/-- R140: `1 <= rows <= MAX_ROWS` and `columns >= 1`. -/
def geometryLegal (columns rows : Byte) : Bool :=
  1 ≤ rows.toNat && rows.toNat ≤ Config.maxRows && 1 ≤ columns.toNat

/-- R94, R172: the operand is `bitmap[8]`. -/
def bitmapLegal (bitmap : List Byte) : Bool :=
  bitmap.length == Config.glyphRows

/-- R87: the font bit is always 0, and the two-line bit is only sent in 4-bit mode. -/
def functionSetLegal (eight two font : Bool) : Bool :=
  !font && !(eight && two)

/-- An instruction whose operands the spec gives a meaning for in some state. -/
def Instr.wellFormed : Instr → Bool
  | .lcdInit columns rows => geometryLegal columns rows
  | .createChar _ bitmap => bitmapLegal bitmap
  | .hcFuncSet eight two font => functionSetLegal eight two font
  | .ffInit _ | .start _ | .startWait _ | .repStart _ | .writeByte _ | .readByte _ | .stop
  | .push _ | .cmd4 _ | .cmd8 _ | .write _
  | .clear | .setCursor _ _ | .setCursorRaw _ _
  | .display _ | .cursor _ | .blink _ | .direction _ | .autoshift _ | .backlight _
  | .print _ | .printChar _
  | .xb _ _ _ _ _ | .hcClear | .hcEntryMode _ _ | .hcDispCtrl _ _ _
  | .hcSetCgram _ | .hcSetDdram _ | .hd _ | .ab _ _ => true

end Sys2Proof
end

