-- ==== Sys2Proof/Decode.lean ====
section
/-! DEFINITION. Decoding and encoding, from the encodings of 30_encoding.md.

`decode` reads a record of the host command port (R92), `decodeOut` a byte of the output side in
the format its place gives it (R80, R83, R90, R100), a controller command under the numbers of a
configuration (R103). Both are total; what selects nothing is rejected by name. The encoders stand
after them. The last part lays a port record out as one number, for the opcode table's bit
numbering. -/

namespace Sys2Proof

/-- Why a word is no instruction. -/
inductive DecodeError where
  /-- `op_sel` selects no operation (R95). -/
  | reservedOp (opSel : OpSel)
  /-- A controller byte of none of the six kinds the block builds (R83, R96). -/
  | unbuiltCommand (byte : Byte)
  deriving DecidableEq, Repr

/-! ## Host port (R92, R93) -/

/-- A boolean operand is bit 0 of `arg_a`; bits 7:1 are ignored (R93, D5). -/
def boolOperand (a : Byte) : Bool :=
  a.getLsbD 0

/-- The operation a record of the host port selects (R92, R95). -/
def decode (r : PortRecord) : Except DecodeError Instr :=
  match r.opSel.toNat with
  | 0x00 => .ok (.ffInit r.argHz)
  | 0x01 => .ok (.start r.argA)
  | 0x02 => .ok (.startWait r.argA)
  | 0x03 => .ok (.repStart r.argA)
  | 0x04 => .ok (.writeByte r.argA)
  | 0x05 => .ok (.readByte (boolOperand r.argA))
  | 0x06 => .ok .stop
  | 0x08 => .ok (.push r.argA)
  | 0x09 => .ok (.cmd4 r.argA)
  | 0x0A => .ok (.cmd8 r.argA)
  | 0x0B => .ok (.write r.argA)
  | 0x10 => .ok (.lcdInit r.argA r.argB)
  | 0x11 => .ok .clear
  | 0x12 => .ok (.setCursor r.argA r.argB)
  | 0x13 => .ok (.setCursorRaw r.argA r.argB)
  | 0x14 => .ok (.display (boolOperand r.argA))
  | 0x15 => .ok (.cursor (boolOperand r.argA))
  | 0x16 => .ok (.blink (boolOperand r.argA))
  | 0x17 => .ok (.direction (boolOperand r.argA))
  | 0x18 => .ok (.autoshift (boolOperand r.argA))
  | 0x19 => .ok (.backlight (boolOperand r.argA))
  | 0x1A => .ok (.print r.str)
  | 0x1B => .ok (.printChar r.argA)
  | 0x1C => .ok (.createChar r.argA r.str)
  | _ => .error (.reservedOp r.opSel)

/-! ## Output side -/

/-- Format XB, `ddddbews` (R80). -/
def decodeXb (v : Byte) : Instr :=
  .xb (v.extractLsb' 4 4) (v.getLsbD 3) (v.getLsbD 2) (v.getLsbD 1) (v.getLsbD 0)

/-- Format AB, `aaaaaaar` (R90). -/
def decodeAb (v : Byte) : Instr :=
  .ab (v.extractLsb' 1 7) (v.getLsbD 0)

/-! The fields of a controller command, under the names of the configuration (R85 to R87, R103). -/

/-- A flag of a field: its mask if set, else 0. -/
def flag (mask : Byte) (v : Bool) : Byte :=
  if v then mask else 0x00#8

/-- A byte carries every bit of a mask. -/
def carries (v mask : Byte) : Bool :=
  v &&& mask == mask

/-- The field of HC.ENTRYMODE (R85). `SHIFT_DECREMENT` is the name of a shift flag at 0 (R31); what
it has beside the two flags no operation clears (log 14). -/
def entryField (p : Params) (left shift : Bool) : Byte :=
  (p.shiftDecrement &&& ~~~ (p.leftEntry ||| p.shiftIncrement))
    ||| flag p.leftEntry left ||| flag p.shiftIncrement shift

/-- The field of HC.DISPCTRL (R86). -/
def controlField (p : Params) (disp curs blnk : Bool) : Byte :=
  flag p.displayOn disp ||| flag p.cursorOn curs ||| flag p.blinkOn blnk

/-- The font flag of HC.FUNCSET: what `FONT_DEFAULT` sets, and bit 2 where it sets nothing (R87,
log 14). -/
def fontFlag (p : Params) : Byte :=
  if p.fontDefault == 0x00#8 then Config.fontBit else p.fontDefault

/-- The field of HC.FUNCSET (R87). -/
def functionField (p : Params) (eight two font : Bool) : Byte :=
  (if eight then p.mode8Bit else p.mode4Bit) ||| flag p.twoLine two ||| flag (fontFlag p) font

/-- Format HC, the six command bytes the block builds, each `opcode | field` (R83 to R89). A byte is
of a kind if the flags it carries give it back; where the numbers make two kinds of one byte the
first is read. -/
def decodeHc (p : Params) (v : Byte) : Except DecodeError Instr :=
  let left := carries v p.leftEntry
  let shift := carries v p.shiftIncrement
  let disp := carries v p.displayOn
  let curs := carries v p.cursorOn
  let blnk := carries v p.blinkOn
  let two := carries v p.twoLine
  let font := carries v (fontFlag p)
  let slot := v.extractLsb' 3 3
  let addr := v.extractLsb' 0 7
  if v == p.cmdClearDisplay then .ok .hcClear
  else if v == p.cmdEntryModeSet ||| entryField p left shift then .ok (.hcEntryMode left shift)
  else if v == p.cmdDisplayControl ||| controlField p disp curs blnk then
    .ok (.hcDispCtrl disp curs blnk)
  else if v == p.cmdFunctionSet ||| functionField p true two font then .ok (.hcFuncSet true two font)
  else if v == p.cmdFunctionSet ||| functionField p false two font then
    .ok (.hcFuncSet false two font)
  else if v == p.cmdSetCgramAddr ||| slot.setWidth 8 <<< 3 then .ok (.hcSetCgram slot)
  else if v == p.cmdSetDdramAddr ||| addr.setWidth 8 then .ok (.hcSetDdram addr)
  else .error (.unbuiltCommand v)

/-- A byte of the output side, read in its format. -/
def decodeOut (p : Params) : OutWord → Except DecodeError Instr
  | .xb v => .ok (decodeXb v)
  | .hc v => decodeHc p v
  | .hd v => .ok (.hd v)
  | .ab v => .ok (decodeAb v)

/-- The decoder on either side. -/
def decodeWord (p : Params) : CodeWord → Except DecodeError Instr
  | .port r => decode r
  | .out w => decodeOut p w

/-! ## Encoders -/

/-- A record with an operation code and everything else zero. -/
def PortRecord.code (op : OpSel) : PortRecord :=
  { opSel := op, argA := 0#8, argB := 0#8, argHz := 0#32, str := [] }

/-- A record with one byte operand. -/
def PortRecord.codeA (op : OpSel) (a : Byte) : PortRecord :=
  { PortRecord.code op with argA := a }

/-- A record with two byte operands. -/
def PortRecord.codeAB (op : OpSel) (a b : Byte) : PortRecord :=
  { PortRecord.code op with argA := a, argB := b }

/-- A boolean operand on `arg_a` (R93). -/
def boolByte (v : Bool) : Byte :=
  if v then 0x01#8 else 0x00#8

/-- A bit of an output-side byte, placed at bit `i`. -/
def bitAt (v : Bool) (i : Nat) : Byte :=
  boolByte v <<< i

/-- The words of an instruction, the command numbers those of the configuration (R80 to R92, R100,
R103). -/
def encode (p : Params) : Instr → CodeWord
  | .ffInit hz => .port { PortRecord.code 0x00#5 with argHz := hz }
  | .start a => .port (PortRecord.codeA 0x01#5 a)
  | .startWait a => .port (PortRecord.codeA 0x02#5 a)
  | .repStart a => .port (PortRecord.codeA 0x03#5 a)
  | .writeByte d => .port (PortRecord.codeA 0x04#5 d)
  | .readByte k => .port (PortRecord.codeA 0x05#5 (boolByte k))
  | .stop => .port (PortRecord.code 0x06#5)
  | .push x => .port (PortRecord.codeA 0x08#5 x)
  | .cmd4 c => .port (PortRecord.codeA 0x09#5 c)
  | .cmd8 c => .port (PortRecord.codeA 0x0A#5 c)
  | .write c => .port (PortRecord.codeA 0x0B#5 c)
  | .lcdInit columns rows => .port (PortRecord.codeAB 0x10#5 columns rows)
  | .clear => .port (PortRecord.code 0x11#5)
  | .setCursor col row => .port (PortRecord.codeAB 0x12#5 col row)
  | .setCursorRaw col row => .port (PortRecord.codeAB 0x13#5 col row)
  | .display v => .port (PortRecord.codeA 0x14#5 (boolByte v))
  | .cursor v => .port (PortRecord.codeA 0x15#5 (boolByte v))
  | .blink v => .port (PortRecord.codeA 0x16#5 (boolByte v))
  | .direction v => .port (PortRecord.codeA 0x17#5 (boolByte v))
  | .autoshift v => .port (PortRecord.codeA 0x18#5 (boolByte v))
  | .backlight v => .port (PortRecord.codeA 0x19#5 (boolByte v))
  | .print str => .port { PortRecord.code 0x1A#5 with str := str }
  | .printChar c => .port (PortRecord.codeA 0x1B#5 c)
  | .createChar location bitmap => .port { PortRecord.codeA 0x1C#5 location with str := bitmap }
  | .xb nibble bl e rw rs =>
      .out (.xb (nibble.setWidth 8 <<< 4 ||| bitAt bl 3 ||| bitAt e 2 ||| bitAt rw 1 ||| bitAt rs 0))
  | .hcClear => .out (.hc p.cmdClearDisplay)
  | .hcEntryMode left shift => .out (.hc (p.cmdEntryModeSet ||| entryField p left shift))
  | .hcDispCtrl disp curs blnk =>
      .out (.hc (p.cmdDisplayControl ||| controlField p disp curs blnk))
  | .hcFuncSet eight two font =>
      .out (.hc (p.cmdFunctionSet ||| functionField p eight two font))
  | .hcSetCgram slot => .out (.hc (p.cmdSetCgramAddr ||| slot.setWidth 8 <<< 3))
  | .hcSetDdram addr => .out (.hc (p.cmdSetDdramAddr ||| addr.setWidth 8))
  | .hd c => .out (.hd c)
  | .ab addr dir => .out (.ab (addr.setWidth 8 <<< 1 ||| bitAt dir 0))

/-- The numbers make no two controller commands of one byte. -/
abbrev Params.CommandsDiffer (p : Params) : Prop :=
  ∀ (i j : Instr) (v : Byte), encode p i = .out (.hc v) → encode p j = .out (.hc v) → i = j

/-! ## A word of the opcode table as one number

The port is a record, not a memory. For the table's bit numbering the record is laid out lowest
bit first: `op_sel` in the first byte (its three bits above bit 4 zero), `arg_a`, `arg_b`, the
four bytes of `arg_hz` with the least significant first, the length of `str`, the bytes of
`str`. -/

/-- Byte `i` of a number. -/
def byteOf (w i : Nat) : Byte :=
  BitVec.ofNat 8 (w >>> (8 * i))

/-- `n` consecutive bytes of a number from byte `i` on. -/
def bytesFrom (w i : Nat) : Nat → List Byte
  | 0 => []
  | n + 1 => byteOf w i :: bytesFrom w (i + 1) n

/-- The bits of `w` the table gives, the bits above them zero. -/
def tableBits (nbits w : Nat) : Nat :=
  w % 2 ^ nbits

/-- The port record laid out in a number. -/
def recordOfNat (w : Nat) : PortRecord :=
  { opSel := BitVec.ofNat 5 w
    argA := byteOf w 1
    argB := byteOf w 2
    argHz := BitVec.ofNat 32 (w >>> 24)
    str := bytesFrom w 8 (byteOf w 7).toNat }

/-- The number's first byte is an `op_sel` (its bits 7:5 are zero). -/
def isPortWord (w : Nat) : Bool :=
  w % 256 < 32

/-- A table word as it is presented: at the host port where its first byte can be an `op_sel`,
else as a controller byte of the output side. -/
def codeWordOfTable (nbits w : Nat) : CodeWord :=
  let bits := tableBits nbits w
  if isPortWord bits then .port (recordOfNat bits) else .out (.hc (byteOf bits 0))

/-- The instruction the decoder reads from a word of the opcode table, which is written with the
default numbers. -/
def decodeTableWord (nbits w : Nat) : Option Instr :=
  match decodeWord Config.defaults (codeWordOfTable nbits w) with
  | .ok i => some i
  | .error _ => none

end Sys2Proof
end

