-- ==== Sys2Proof/Machine/State.lean ====
section
/-! DEFINITION. The state of the block as plain data, the names of its stops, and reset.

The spec's state is R20 (two records and three flags), the sequencer position (R28), the result
port (R102) and the two ghost bits (R38). The trace is the block's output (R10). The last fields
are the model's own: the configuration at hand (R7), the operations the host is going to present
(R91, R216), the environment's answers (R13) and the reason of the last refusal (R188). -/

namespace Sys2Proof.Machine

/-! ## Outcomes that stop the model -/

/-- The faults. -/
inductive Fault where
  /-- R186: the opening start of a driver operation ran out of attempts under a finite
  `MAX_ATTEMPTS`. Raised by `step` at the position `Seq.faulted`, to which LCD_INIT and every
  bracketed operation lead in that case with the failed attempt in the trace. Safe: the run stops
  there, as the spec says. -/
  | deviceUnresponsive
  /-- A cursor placement would read past the four row offsets, which needs a `lineCount` outside
  1 to 4 (R152 corner case c, R229). Raised by SETCURSOR and SETCURSOR_RAW in states no run
  reaches. Safe: the model stops. -/
  | rowOffsetMissing (index : Nat)
  deriving DecidableEq, Repr

/-- The refusals: what the model gives no meaning to. The refusals of R190 are none of these:
they have an effect (the ghost bit `refused`), see `Reason`. -/
inductive Refusal where
  /-- An instruction the model has no meaning for. Raised by a refused arm of `exec`; no arm is
  refused. Safe: the model stops. -/
  | notModelled (mnemonic : String)
  /-- R112: a finite `MAX_ATTEMPTS` with `RETRY_STOP = false` is a configuration the spec does not
  admit. Raised where such a configuration runs out of attempts. Safe: the model stops. -/
  | configurationNotAdmitted
  /-- The sequencer stands at the sending of a controller byte of none of the six kinds the block
  builds (R83). Raised by `step` in states no run reaches. Safe: the model stops. -/
  | unbuiltCommand (byte : Byte)
  deriving DecidableEq, Repr

/-! ## Pieces of the state -/

/-- The spec's refusal reasons, R190's closed list. -/
inductive Reason where
  | reservedOp
  | notReady
  | notInitialised
  | busOpen
  | busClosed
  | badGeometry
  | badOperand
  deriving DecidableEq, Repr

/-- The events of the trace (R10). -/
inductive Event where
  /-- `CFG(hz)` -/
  | cfg (hz : Hz)
  /-- `S`, a start condition -/
  | s
  /-- `Sr`, a repeated start condition -/
  | sr
  /-- `A(b, k)`: address byte and the slave's answer -/
  | a (b : Byte) (k : Ack)
  /-- `D(b, k)`: data byte and the slave's answer -/
  | d (b : Byte) (k : Ack)
  /-- `R(b, k)`: byte received and the master's answer -/
  | r (b : Byte) (k : Ack)
  /-- `P`, a stop condition -/
  | p
  /-- `W(n)`: a wait of at least `n` µs -/
  | w (micros : Nat)
  deriving DecidableEq, Repr

/-- BusHandle (R21). -/
structure BusHandle where
  clockHz : Hz
  timing  : BusTiming
  deriving DecidableEq, Repr

/-- DisplayState (R24 to R31). -/
structure DisplayState where
  backlightOn    : Bool
  columnCount    : Byte
  lineCount      : Byte
  rowOffsets     : Vector Byte 4
  functionFlags  : Byte
  controlFlags   : Byte
  entryModeFlags : Byte
  deriving DecidableEq, Repr

/-- A byte for the controller: a command is sent with RS = 0, a data byte with RS = 1 (R83, R100). -/
inductive CtlByte where
  | command (c : Byte)
  | data (c : Byte)
  deriving DecidableEq, Repr

/-- What a running operation still has to do once its opening start is acknowledged. -/
inductive After where
  /-- START_WAIT issued by the host: nothing but the result (R112). -/
  | hostStart
  /-- A bracketed operation: these controller bytes, then the stop (R150). -/
  | bracket (body : List CtlByte)
  /-- LCD_INIT from step 3 on (R140). -/
  | handshake (columns rows : Byte)
  deriving DecidableEq, Repr

/-- The sequencer position (R28), at the grain the model steps with: an operation runs in one step
but for the retry loop of START_WAIT, which is one step an attempt (R192). -/
inductive Seq where
  | idle
  /-- In the retry loop: the address byte, the attempts that failed so far, what follows. -/
  | startWait (address : Byte) (failed : Nat) (after : After)
  /-- Where a driver operation stopped that ran out of attempts: faulted for good, never idle again
  (R186). -/
  | faulted
  /-- At the statement that sends one output-side byte by itself (the model's own, log 13). -/
  | sending (word : OutWord)
  deriving DecidableEq, Repr

/-- The result port (R91, R102). -/
inductive Result where
  | notValid
  | status (ok : Bool)
  | readData (rdata : Byte)
  deriving DecidableEq, Repr

/-- The environment (R13): the first answers and bytes of the slave may be given, the rest is
free; the counters say how many have been drawn. -/
structure Env where
  answers    : List Ack
  acksDrawn  : Nat
  bytes      : List Byte
  bytesDrawn : Nat
  deriving DecidableEq, Repr

/-! ## The state -/

@[ext]
structure State where
  /-- The configuration at hand (R7); nothing writes it. -/
  cfg      : Params
  /-- BusHandle (R21). -/
  bus      : BusHandle
  /-- R22. -/
  ffReady  : Bool
  /-- R23. -/
  busOpen  : Bool
  /-- DisplayState (R24 to R31). -/
  ds       : DisplayState
  /-- R33. -/
  dsValid  : Bool
  /-- The sequencer position (R28). -/
  seq      : Seq
  /-- The operations the host presents from now on, first one first (R91, R216, R231). -/
  port     : List PortRecord
  /-- The result port (R102). -/
  result   : Result
  /-- The output so far, oldest event first (R10). -/
  trace    : List Event
  /-- Ghost (R38): an answer outside START_WAIT's retry loop was NACK. -/
  nackSeen : Bool
  /-- Ghost (R38): an operation was refused. -/
  refused  : Bool
  /-- The reason reported for the last refused operation (R188); the model's own. -/
  refusal  : Option Reason
  /-- The environment (R13); the model's own. -/
  env      : Env
  deriving DecidableEq, Repr

/-- The reset state (R39, R211). The registers R39 calls unwritten hold the opaque constants of
`Config`, so that no number is picked for them (log 1). -/
def State.reset : State where
  cfg := Config.defaults
  bus := { clockHz := Config.unwrittenClockHz, timing := Config.unwrittenTiming }
  ffReady := false
  busOpen := false
  ds :=
    { backlightOn := Config.unwrittenBacklightOn
      columnCount := Config.unwrittenColumnCount
      lineCount := Config.unwrittenLineCount
      rowOffsets := #v[Config.unwrittenRowOffset 0, Config.unwrittenRowOffset 1,
                       Config.unwrittenRowOffset 2, Config.unwrittenRowOffset 3]
      functionFlags := Config.unwrittenFunctionFlags
      controlFlags := Config.unwrittenControlFlags
      entryModeFlags := Config.unwrittenEntryModeFlags }
  dsValid := false
  seq := .idle
  port := []
  result := .notValid
  trace := []
  nackSeen := false
  refused := false
  refusal := none
  env := { answers := [], acksDrawn := 0, bytes := [], bytesDrawn := 0 }

end Sys2Proof.Machine
end

