-- ==== Sys2Proof/Machine/Flags.lean ====
section
/-! DEFINITION. The three flag registers and the command bytes built from them (R29 to R31, R83 to
R89). The block has no condition codes (R34); these registers are its only flags. -/

namespace Sys2Proof.Machine

/-- The attribute toggle: clear the bit, set it if the operand is true (R154). -/
def toggleBit (reg bit : Byte) (v : Bool) : Byte :=
  if v then (reg &&& ~~~ bit) ||| bit else reg &&& ~~~ bit

/-- `functionFlags` after LCD_INIT (R29, R140 step 5). -/
def functionFlagsOf (p : Params) (rows : Byte) : Byte :=
  (if 0x01#8 < rows then p.twoLine else 0x00#8) ||| p.fontDefault ||| p.mode4Bit

/-- `controlFlags` after LCD_INIT (R30, R140 step 8). -/
def controlFlagsAtInit (p : Params) : Byte :=
  p.displayOn

/-- `entryModeFlags` after LCD_INIT (R31, R140 step 10). -/
def entryModeFlagsAtInit (p : Params) : Byte :=
  p.leftEntry ||| p.shiftDecrement

/-- HC.ENTRYMODE (R85). -/
def entryModeCommand (p : Params) (flags : Byte) : Byte :=
  p.cmdEntryModeSet ||| flags

/-- HC.DISPCTRL (R86). -/
def displayControlCommand (p : Params) (flags : Byte) : Byte :=
  p.cmdDisplayControl ||| flags

/-- HC.FUNCSET (R87). -/
def functionSetCommand (p : Params) (field : Byte) : Byte :=
  p.cmdFunctionSet ||| field

/-- HC.SETCGRAM (R88). -/
def setCgramCommand (p : Params) (slot : Byte) : Byte :=
  p.cmdSetCgramAddr ||| (slot <<< 3)

/-- HC.SETDDRAM: the address is not masked (R89, R152). -/
def setDdramCommand (p : Params) (address : Byte) : Byte :=
  p.cmdSetDdramAddr ||| address

end Sys2Proof.Machine
end

