-- ==== Sys2Proof/Machine/Operands.lean ====
section
/-! DEFINITION. Operand forms: how operands become bytes (R80 to R82, R90, R93, R152, R170, R172).
All arithmetic is on unsigned bytes, modulo 256 (R9, R99). -/

namespace Sys2Proof.Machine

/-! ## Nibbles and the expander byte -/

/-- `hi(c) = c & 0xF0` (R81). -/
def hiNibble (c : Byte) : Byte :=
  c &&& 0xF0#8

/-- `lo(c) = (c << 4) & 0xF0` (R81). -/
def loNibble (c : Byte) : Byte :=
  (c <<< 4) &&& 0xF0#8

/-- `bl = BL if backlightOn else 0` (R82). -/
def blLine (on : Bool) : Byte :=
  if on then Config.bl else 0x00#8

/-- The six lines a push copies from its operand, and the two it forces left at 0 (R82). -/
def keptLines (x : Byte) : Byte :=
  x &&& 0xF3#8

/-- `x_hi`: E forced high, BL forced to `backlightOn` (R82, R130). -/
def pushHigh (backlightOn : Bool) (x : Byte) : Byte :=
  keptLines x ||| Config.e ||| blLine backlightOn

/-- `x_lo`: E forced low, BL by `PUSH_LO_BL` (R82, R130, C2). -/
def pushLow (lo : PushLoBl) (backlightOn : Bool) (x : Byte) : Byte :=
  match lo with
  | .follow => keptLines x ||| blLine backlightOn
  | .low => keptLines x

/-- The operand of one nibble of a controller byte: RS is added to a data nibble (R81). -/
def withRs (x : Byte) : Byte :=
  x ||| Config.rs

/-- An expander byte from its lines, `ddddbews` (R80). -/
def expanderByte (nibble : BitVec 4) (bl e rw rs : Bool) : Byte :=
  nibble.setWidth 8 <<< 4
    ||| (if bl then Config.bl else 0#8) ||| (if e then Config.e else 0#8)
    ||| (if rw then Config.rw else 0#8) ||| (if rs then Config.rs else 0#8)

/-! ## Addresses -/

/-- `DA = DEV_ADDR & ~DIR_MASK` (R90). -/
def deviceAddress (p : Params) : Byte :=
  p.devAddr &&& ~~~ p.dirMask

/-- An address-and-direction byte, `aaaaaaar` (R90). -/
def addressByte (addr : BitVec 7) (dir : Bool) : Byte :=
  addr.setWidth 8 <<< 1 ||| (if dir then 0x01#8 else 0x00#8)

/-- `min(max(v, 1), limit)` (R99, R152). -/
def clamp (v limit : Byte) : Byte :=
  let atLeastOne := if v < 1#8 then 1#8 else v
  if limit < atLeastOne then limit else atLeastOne

/-- The DDRAM address of a cursor position, `(c - 1) + rowOffsets[r - 1]` after clamping, modulo
256 (R152), or the index where no row offset stands. -/
def cursorAddress (d : DisplayState) (col row : Byte) : Except Nat Byte :=
  let c := clamp col d.columnCount
  let r := clamp row d.lineCount
  let index := (r - 1#8).toNat
  match d.rowOffsets.toList[index]? with
  | some offset => .ok ((c - 1#8) + offset)
  | none => .error index

/-- `slot = location & CGRAM_SLOT_MASK` (R172). -/
def glyphSlot (location : Byte) : Byte :=
  location &&& Config.cgramSlotMask

/-- A glyph row, masked to 5 bits (R172). -/
def glyphRow (row : Byte) : Byte :=
  row &&& Config.glyphRowMask

/-- The row offsets of a geometry: `[0x00, 0x40, columns, 0x40 + columns]` (R27, R140 step 6). -/
def rowOffsetsOf (columns : Byte) : Vector Byte 4 :=
  #v[0x00#8, Config.row1Base, columns, Config.row1Base + columns]

/-! ## Operands of variable length, and operand checks -/

/-- The bytes PRINT sends: those before the first `TERMINATOR`, all of them if there is none
(R94, R170). -/
def printed (terminator : Byte) (str : List Byte) : List Byte :=
  str.takeWhile (fun c => c != terminator)

/-- LCD_INIT's check: `1 <= rows <= MAX_ROWS` and `columns >= 1` (R140). -/
def geometryOk (columns rows : Byte) : Bool :=
  0x01#8 ≤ rows && rows.toNat ≤ Config.maxRows && 0x01#8 ≤ columns

/-- CREATECHAR's check: exactly eight rows (R94, R172). -/
def bitmapOk (bitmap : List Byte) : Bool :=
  bitmap.length == Config.glyphRows

end Sys2Proof.Machine
end

