-- ==== Sys2Proof/Machine/Ops.lean ====
section
/-! DEFINITION. The named operations every meaning is built from: updates of the state, the trace
and the environment, the checks before an operation, the frame-formatter operations called as
subroutines (R11), the pushes (R130 to R133), and the bracket with its retrying start (R112,
R150). -/

namespace Sys2Proof.Machine

/-- What a meaning answers. -/
abbrev Answer := Host.Outcome State Fault Refusal

/-! ## Updates of one field -/

def State.setBus (b : BusHandle) (s : State) : State := { s with bus := b }
def State.setFfReady (v : Bool) (s : State) : State := { s with ffReady := v }
def State.setBusOpen (v : Bool) (s : State) : State := { s with busOpen := v }
def State.setDs (d : DisplayState) (s : State) : State := { s with ds := d }
def State.setDsValid (v : Bool) (s : State) : State := { s with dsValid := v }
def State.setSeq (q : Seq) (s : State) : State := { s with seq := q }
def State.setPort (l : List PortRecord) (s : State) : State := { s with port := l }
def State.setResult (r : Result) (s : State) : State := { s with result := r }

/-- Append events to the trace, in order (`emit`, R11). -/
def State.emits (es : List Event) (s : State) : State := { s with trace := s.trace ++ es }

/-- `wait(n)` (R11, R195). -/
def State.wait (n : Nat) (s : State) : State := s.emits [.w n]

/-- Ghost: an answer outside the retry loop is recorded if it is NACK (R38). -/
def State.noteAnswer (k : Ack) (s : State) : State :=
  { s with nackSeen := s.nackSeen || k == .nack }

/-! ## The environment (R13) -/

/-- The answer to the `i`-th byte sent: given by the state or free. -/
def Env.ackAt (e : Env) (i : Nat) : Ack :=
  (e.answers[i]?).getD (Config.slaveAck i)

/-- The `i`-th byte the slave sends: given by the state or free. -/
def Env.byteAt (e : Env) (i : Nat) : Byte :=
  (e.bytes[i]?).getD (Config.slaveByte i)

/-- The answer after `n` further draws; `s.ack 0` is the next one. -/
def State.ack (s : State) (n : Nat) : Ack :=
  s.env.ackAt (s.env.acksDrawn + n)

/-- The byte the slave sends next. -/
def State.slaveByte (s : State) : Byte :=
  s.env.byteAt s.env.bytesDrawn

/-- The environment after `n` answers were drawn. -/
def State.drawAcks (n : Nat) (s : State) : State :=
  { s with env := { s.env with acksDrawn := s.env.acksDrawn + n } }

/-- The environment after a byte was drawn. -/
def State.drawByte (s : State) : State :=
  { s with env := { s.env with bytesDrawn := s.env.bytesDrawn + 1 } }

/-! ## Checks and refusals (R188, R190) -/

/-- A refused operation writes nothing and emits nothing but sets the ghost bit for good; the
reason is reported (R12, R190). This is the block's answer to a wrong use, in place of a trap. -/
def State.refuse (r : Reason) (s : State) : State :=
  { s with refused := true, refusal := some r }

/-- A precondition and the reason reported where it does not hold. -/
abbrev Check := Bool × Reason

def readyCheck (s : State) : Check := (s.ffReady, .notReady)
def initCheck (s : State) : Check := (s.dsValid, .notInitialised)
def closedCheck (s : State) : Check := (!s.busOpen, .busOpen)
def openCheck (s : State) : Check := (s.busOpen, .busClosed)

/-- The first check that fails is the one reported (R188). -/
def firstFailing : List Check → Option Reason
  | [] => none
  | (holds, r) :: rest => if holds then firstFailing rest else some r

/-- The operation is accepted: the result of the one before is no longer valid (R102). -/
def State.accept (s : State) : State := s.setResult .notValid

/-- An operation behind its checks: all of them are made before anything is written or emitted
(R188). -/
def guarded (checks : List Check) (s : State) (run : State → Answer) : Answer :=
  match firstFailing checks with
  | some r => .next (s.refuse r)
  | none => run s.accept

/-- START, START_WAIT (R118). -/
def startChecks (s : State) : List Check := [readyCheck s, closedCheck s]
/-- REP_START, WRITE_BYTE, READ_BYTE, STOP (R118). -/
def openChecks (s : State) : List Check := [readyCheck s, openCheck s]
/-- PUSH, CMD4, CMD8, WRITE (R134), SETCURSOR_RAW (R152). -/
def rawChecks (s : State) : List Check := [readyCheck s, initCheck s, openCheck s]
/-- The bracketed operations (R150). -/
def bracketChecks (s : State) : List Check := [readyCheck s, initCheck s, closedCheck s]

/-! ## Frame formatter as subroutines (R110 to R116) -/

/-- FF_INIT's effect (R110). -/
def busConfigure (clockHz : Hz) (s : State) : State :=
  ((s.setBus { clockHz := clockHz, timing := Config.timingOf clockHz }).setFfReady true).emits
    [.cfg clockHz]

/-- `BusStart` (R111). -/
def busStart (address : Byte) (s : State) : State :=
  (((s.drawAcks 1).emits [.s, .a address (s.ack 0)]).noteAnswer (s.ack 0)).setBusOpen true

/-- `BusRepStart` (R113). -/
def busRepStart (address : Byte) (s : State) : State :=
  ((s.drawAcks 1).emits [.sr, .a address (s.ack 0)]).noteAnswer (s.ack 0)

/-- `BusWrite` (R114). -/
def busWrite (data : Byte) (s : State) : State :=
  ((s.drawAcks 1).emits [.d data (s.ack 0)]).noteAnswer (s.ack 0)

/-- `BusRead` (R115). -/
def busRead (requestAck : Bool) (s : State) : State :=
  (s.drawByte).emits [.r s.slaveByte (if requestAck then .ack else .nack)]

/-- `BusStop` (R116). -/
def busStop (s : State) : State :=
  (s.emits [.p]).setBusOpen false

/-- The `ok` of the byte sent from state `s` (R102, R181). -/
def okResult (s : State) : Result := .status (s.ack 0 == .ack)

/-! ## Nibble operations as subroutines (R130 to R133) -/

/-- `Push` (R130): E high, E low, settle. The answers are ignored (R183). -/
def push (x : Byte) (s : State) : State :=
  (busWrite (pushLow s.cfg.pushLoBl s.ds.backlightOn x)
    (busWrite (pushHigh s.ds.backlightOn x) s)).wait Config.tSettle

/-- `Cmd4` (R131). -/
def cmd4 (c : Byte) (s : State) : State :=
  push (loNibble c) (push (hiNibble c) s)

/-- `Cmd8` (R132). -/
def cmd8 (c : Byte) (s : State) : State :=
  push (hiNibble c) s

/-- `WriteData` (R133). -/
def writeData (c : Byte) (s : State) : State :=
  push (withRs (loNibble c)) (push (withRs (hiNibble c)) s)

/-- A controller byte as two nibbles (R83, R100). -/
def sendByte (b : CtlByte) (s : State) : State :=
  match b with
  | .command c => cmd4 c s
  | .data c => writeData c s

/-- Controller bytes in list order. -/
def sendAll : List CtlByte → State → State
  | [], s => s
  | b :: rest, s => sendAll rest (sendByte b s)

/-! ## The initialisation handshake after its opening start (R140 steps 3 to 11) -/

/-- Steps 3 and 4: three 8-bit function-sets with their waits, one 4-bit function-set. -/
def handshakeResets (s : State) : State :=
  let eight := functionSetCommand s.cfg s.cfg.mode8Bit
  let four := functionSetCommand s.cfg s.cfg.mode4Bit
  cmd8 four (cmd8 eight ((cmd8 eight ((cmd8 eight s).wait Config.tReset1)).wait Config.tReset2))

/-- Steps 5 and 6: the geometry registers. -/
def storeGeometry (columns rows : Byte) (s : State) : State :=
  s.setDs { s.ds with
    functionFlags := functionFlagsOf s.cfg rows
    lineCount := rows
    columnCount := columns
    rowOffsets := rowOffsetsOf columns }

/-- Step 7. -/
def sendFunctionSet (s : State) : State :=
  cmd4 (functionSetCommand s.cfg s.ds.functionFlags) s

/-- Step 8. -/
def initDisplayControl (s : State) : State :=
  let s1 := s.setDs { s.ds with controlFlags := controlFlagsAtInit s.cfg }
  cmd4 (displayControlCommand s1.cfg s1.ds.controlFlags) s1

/-- Step 9. -/
def sendClear (s : State) : State :=
  cmd4 s.cfg.cmdClearDisplay s

/-- Step 10. -/
def initEntryMode (s : State) : State :=
  let s1 := s.setDs { s.ds with entryModeFlags := entryModeFlagsAtInit s.cfg }
  cmd4 (entryModeCommand s1.cfg s1.ds.entryModeFlags) s1

/-- Steps 3 to 11. -/
def handshake (columns rows : Byte) (s : State) : State :=
  (busStop (initEntryMode (sendClear (initDisplayControl (sendFunctionSet
    (storeGeometry columns rows (handshakeResets s))))))).setDsValid true

/-! ## The retrying start and the bracket (R112, R150) -/

/-- What follows the acknowledged opening start. -/
def opened (after : After) (s : State) : State :=
  match after with
  | .hostStart => s.setResult (.status true)
  | .bracket body => busStop (sendAll body s)
  | .handshake columns rows => handshake columns rows s

/-- `MAX_ATTEMPTS` is reached after `failed` failed attempts; never with ∞ (R112). -/
def exhausted (p : Params) (failed : Nat) : Bool :=
  match p.maxAttempts with
  | none => false
  | some m => decide (m ≤ failed)

/-- What is left of an operation whose attempts have run out: START_WAIT returns failure (R112), a
driver operation stops where it is, faulted for good (R186). -/
def abandoned (after : After) (s : State) : State :=
  match after with
  | .hostStart => (s.setSeq .idle).setResult (.status false)
  | .bracket _ => s.setSeq .faulted
  | .handshake _ _ => s.setSeq .faulted

/-- The attempts have run out, in a configuration R112 admits or in one it does not. -/
def giveUp (after : After) (s : State) : Answer :=
  if s.cfg.retryStop then .next (abandoned after s)
  else .refused .configurationNotAdmitted

/-- The stop condition between attempts, if `RETRY_STOP` (R112, D12). -/
def retryStop (s : State) : State :=
  if s.cfg.retryStop then s.emits [.p] else s

/-- An attempt was not acknowledged; `failed` counts it. -/
def notAcknowledged (address : Byte) (failed : Nat) (after : After) (s : State) : Answer :=
  if exhausted s.cfg failed then giveUp after (retryStop s)
  else .next ((retryStop s).setSeq (.startWait address failed after))

/-- One attempt of the retrying start and, if it is acknowledged, all that follows it. A NACK here
does not set `nackSeen` (R38, R112). -/
def attempt (address : Byte) (failed : Nat) (after : After) (s : State) : Answer :=
  let s1 := (s.drawAcks 1).emits [.s, .a address (s.ack 0)]
  match s.ack 0 with
  | .ack => .next (opened after ((s1.setSeq .idle).setBusOpen true))
  | .nack => notAcknowledged address (failed + 1) after s1

/-- The opening `BusStartWait(DA)` of a driver operation (R150). -/
def openDisplay (after : After) (s : State) : Answer :=
  attempt (deviceAddress s.cfg) 0 after s

/-- A bracketed operation that sends the bytes `body` (R150). -/
def bracketed (s : State) (body : State → List CtlByte) : Answer :=
  guarded (bracketChecks s) s fun s1 => openDisplay (.bracket (body s1)) s1

/-- An operation inside a transaction the host holds open (R134). -/
def raw (s : State) (body : State → State) : Answer :=
  guarded (rawChecks s) s fun s1 => .next (body s1)

/-- A toggle of `controlFlags` (R154): the register first, then the bracket. -/
def toggleControl (bit : Params → Byte) (v : Bool) (s : State) : Answer :=
  guarded (bracketChecks s) s fun s1 =>
    let reg := toggleBit s1.ds.controlFlags (bit s1.cfg) v
    openDisplay (.bracket [.command (displayControlCommand s1.cfg reg)])
      (s1.setDs { s1.ds with controlFlags := reg })

/-- A toggle of `entryModeFlags` (R154). -/
def toggleEntryMode (bit : Params → Byte) (v : Bool) (s : State) : Answer :=
  guarded (bracketChecks s) s fun s1 =>
    let reg := toggleBit s1.ds.entryModeFlags (bit s1.cfg) v
    openDisplay (.bracket [.command (entryModeCommand s1.cfg reg)])
      (s1.setDs { s1.ds with entryModeFlags := reg })

/-- The sequencer is idle: the `idle` port (R91). -/
def State.idle (s : State) : Bool :=
  s.seq == .idle

/-- A presented record that selects nothing is refused (R95); a controller byte the block never
builds has no meaning at the sequencer (R83). -/
def rejected (e : DecodeError) (s : State) : Answer :=
  match e with
  | .reservedOp _ => .next (s.refuse .reservedOp)
  | .unbuiltCommand b => .refused (.unbuiltCommand b)

end Sys2Proof.Machine
end

