-- ==== Sys2Proof/Machine/Commands.lean ====
section
/-! DEFINITION. The command operations (43_commands.md). -/

namespace Sys2Proof.Machine

/-- CLEAR (R151). -/
def execClear (s : State) : Answer :=
  bracketed s fun s1 => [.command s1.cfg.cmdClearDisplay]

/-- SETCURSOR (R153): R152's body in a bracket of its own. -/
def execSetCursor (col row : Byte) (s : State) : Answer :=
  guarded (bracketChecks s) s fun s1 =>
    match cursorAddress s1.ds col row with
    | .ok address => openDisplay (.bracket [.command (setDdramCommand s1.cfg address)]) s1
    | .error index => .fault (.rowOffsetMissing index)

/-- SETCURSOR_RAW (R152). -/
def execSetCursorRaw (col row : Byte) (s : State) : Answer :=
  guarded (rawChecks s) s fun s1 =>
    match cursorAddress s1.ds col row with
    | .ok address => .next (cmd4 (setDdramCommand s1.cfg address) s1)
    | .error index => .fault (.rowOffsetMissing index)

/-- DISPLAY (R155). -/
def execDisplay (on : Bool) (s : State) : Answer :=
  toggleControl Params.displayOn on s

/-- CURSOR (R156). -/
def execCursor (on : Bool) (s : State) : Answer :=
  toggleControl Params.cursorOn on s

/-- BLINK (R157). -/
def execBlink (on : Bool) (s : State) : Answer :=
  toggleControl Params.blinkOn on s

/-- DIRECTION (R158). -/
def execDirection (leftToRight : Bool) (s : State) : Answer :=
  toggleEntryMode Params.leftEntry leftToRight s

/-- AUTOSHIFT (R159). -/
def execAutoshift (on : Bool) (s : State) : Answer :=
  toggleEntryMode Params.shiftIncrement on s

/-- BACKLIGHT (R160): the register first, then display-control is sent again. -/
def execBacklight (on : Bool) (s : State) : Answer :=
  guarded (bracketChecks s) s fun s1 =>
    openDisplay (.bracket [.command (displayControlCommand s1.cfg s1.ds.controlFlags)])
      (s1.setDs { s1.ds with backlightOn := on })

end Sys2Proof.Machine
end

