-- ==== Sys2Proof/Machine/FrameFormatter.lean ====
section
/-! DEFINITION. The frame-formatter operations (40_frame_formatter.md). -/

namespace Sys2Proof.Machine

/-- FF_INIT (R110): needs no `ffReady`, only a closed bus. -/
def execFfInit (clockHz : Hz) (s : State) : Answer :=
  guarded [closedCheck s] s fun s1 => .next (busConfigure clockHz s1)

/-- START (R111): one attempt; the bus is owned whatever the answer. -/
def execStart (address : Byte) (s : State) : Answer :=
  guarded (startChecks s) s fun s1 => .next ((busStart address s1).setResult (okResult s1))

/-- START_WAIT (R112): the first attempt; a NACK leaves the sequencer in the retry loop. -/
def execStartWait (address : Byte) (s : State) : Answer :=
  guarded (startChecks s) s fun s1 => attempt address 0 .hostStart s1

/-- REP_START (R113). -/
def execRepStart (address : Byte) (s : State) : Answer :=
  guarded (openChecks s) s fun s1 => .next ((busRepStart address s1).setResult (okResult s1))

/-- WRITE_BYTE (R114). -/
def execWriteByte (data : Byte) (s : State) : Answer :=
  guarded (openChecks s) s fun s1 => .next ((busWrite data s1).setResult (okResult s1))

/-- READ_BYTE (R115): the byte is a free draw. -/
def execReadByte (requestAck : Bool) (s : State) : Answer :=
  guarded (openChecks s) s fun s1 =>
    .next ((busRead requestAck s1).setResult (.readData s1.slaveByte))

/-- STOP (R116). -/
def execStop (s : State) : Answer :=
  guarded (openChecks s) s fun s1 => .next (busStop s1)

end Sys2Proof.Machine
end

