-- ==== Sys2Proof/Machine/Init.lean ====
section
/-! DEFINITION. The initialisation handshake (42_init_sequence.md). -/

namespace Sys2Proof.Machine

/-- LCD_INIT (R140): checks, step 1, and the opening start of step 2; `handshake` holds steps 3 to
11. -/
def execLcdInit (columns rows : Byte) (s : State) : Answer :=
  guarded [readyCheck s, closedCheck s, (geometryOk columns rows, .badGeometry)] s fun s1 =>
    openDisplay (.handshake columns rows)
      ((s1.setDs { s1.ds with backlightOn := true }).wait Config.tPower)

end Sys2Proof.Machine
end

