-- ==== Sys2Proof/Machine/Nibble.lean ====
section
/-! DEFINITION. The nibble operations (41_nibble_ops.md), as host operations inside a transaction
the host holds open (R134). They write no register and return nothing. -/

namespace Sys2Proof.Machine

/-- PUSH (R130). -/
def execPush (x : Byte) (s : State) : Answer :=
  raw s (push x)

/-- CMD4 (R131). -/
def execCmd4 (cmd : Byte) (s : State) : Answer :=
  raw s (cmd4 cmd)

/-- CMD8 (R132). -/
def execCmd8 (cmd : Byte) (s : State) : Answer :=
  raw s (cmd8 cmd)

/-- WRITE (R133). -/
def execWrite (c : Byte) (s : State) : Answer :=
  raw s (writeData c)

end Sys2Proof.Machine
end

