-- ==== Sys2Proof/Machine/OutputBytes.lean ====
section
/-! DEFINITION. The nine output-side byte formats (R80, R84 to R90, R100). None is a host operation
(R92): the host port cannot select one. What the spec gives a format is how its byte is sent, and
that is its meaning here: the sending of that byte by the block, under the checks of the operation
that sends such a byte (log 13). -/

namespace Sys2Proof.Machine

/-- XB (R80): one data byte inside the open transaction, as BusWrite sends it (R51, R114). -/
def execXb (nibble : BitVec 4) (bl e rw rs : Bool) (s : State) : Answer :=
  guarded (openChecks s) s fun s1 => .next (busWrite (expanderByte nibble bl e rw rs) s1)

/-- HC.CLEAR (R84). -/
def execHcClear (s : State) : Answer :=
  raw s fun s1 => cmd4 s1.cfg.cmdClearDisplay s1

/-- HC.ENTRYMODE (R85). -/
def execHcEntryMode (left shift : Bool) (s : State) : Answer :=
  raw s fun s1 => cmd4 (entryModeCommand s1.cfg (entryField s1.cfg left shift)) s1

/-- HC.DISPCTRL (R86). -/
def execHcDispCtrl (disp curs blnk : Bool) (s : State) : Answer :=
  raw s fun s1 => cmd4 (displayControlCommand s1.cfg (controlField s1.cfg disp curs blnk)) s1

/-- HC.FUNCSET (R87): in 8-bit mode the high nibble only (R83), else as two nibbles. -/
def execHcFuncSet (eight two font : Bool) (s : State) : Answer :=
  raw s fun s1 =>
    let command := functionSetCommand s1.cfg (functionField s1.cfg eight two font)
    if eight then cmd8 command s1 else cmd4 command s1

/-- HC.SETCGRAM (R88). -/
def execHcSetCgram (slot : BitVec 3) (s : State) : Answer :=
  raw s fun s1 => cmd4 (setCgramCommand s1.cfg (slot.setWidth 8)) s1

/-- HC.SETDDRAM (R89). -/
def execHcSetDdram (addr : BitVec 7) (s : State) : Answer :=
  raw s fun s1 => cmd4 (setDdramCommand s1.cfg (addr.setWidth 8)) s1

/-- HD (R100): a data byte as two nibbles. -/
def execHd (c : Byte) (s : State) : Answer :=
  raw s (writeData c)

/-- AB (R90): the byte after a start condition, which is a repeated start where the transaction is
already open (R111, R113). -/
def execAb (addr : BitVec 7) (dir : Bool) (s : State) : Answer :=
  guarded [readyCheck s] s fun s1 =>
    .next (if s1.busOpen then busRepStart (addressByte addr dir) s1
      else busStart (addressByte addr dir) s1)

end Sys2Proof.Machine
end

