-- ==== Sys2Proof/Machine/Text.lean ====
section
/-! DEFINITION. Text output and custom glyphs (44_text_glyph.md). -/

namespace Sys2Proof.Machine

/-- PRINT (R170). -/
def execPrint (str : List Byte) (s : State) : Answer :=
  bracketed s fun s1 => (printed s1.cfg.terminator str).map CtlByte.data

/-- PRINTCHAR (R171): the terminator value is sent too. -/
def execPrintChar (c : Byte) (s : State) : Answer :=
  bracketed s fun _ => [.data c]

/-- CREATECHAR (R172): `BadOperand` is checked last. -/
def execCreateChar (location : Byte) (bitmap : List Byte) (s : State) : Answer :=
  guarded (bracketChecks s ++ [(bitmapOk bitmap, .badOperand)]) s fun s1 =>
    openDisplay
      (.bracket (.command (setCgramCommand s1.cfg (glyphSlot location))
        :: bitmap.map fun row => CtlByte.data (glyphRow row))) s1

end Sys2Proof.Machine
end

