-- ==== Sys2Proof/Machine/Dispatch.lean ====
section
/-! DEFINITION. One arm per instruction. -/

namespace Sys2Proof.Machine

def exec (i : Instr) (s : State) : Host.Outcome State Fault Refusal :=
  match i with
  | .ffInit clockHz => Sys2Proof.Machine.execFfInit clockHz s
  | .start address => Sys2Proof.Machine.execStart address s
  | .startWait address => Sys2Proof.Machine.execStartWait address s
  | .repStart address => Sys2Proof.Machine.execRepStart address s
  | .writeByte data => Sys2Proof.Machine.execWriteByte data s
  | .readByte requestAck => Sys2Proof.Machine.execReadByte requestAck s
  | .stop => Sys2Proof.Machine.execStop s
  | .push x => Sys2Proof.Machine.execPush x s
  | .cmd4 cmd => Sys2Proof.Machine.execCmd4 cmd s
  | .cmd8 cmd => Sys2Proof.Machine.execCmd8 cmd s
  | .write c => Sys2Proof.Machine.execWrite c s
  | .lcdInit columns rows => Sys2Proof.Machine.execLcdInit columns rows s
  | .clear => Sys2Proof.Machine.execClear s
  | .setCursor col row => Sys2Proof.Machine.execSetCursor col row s
  | .setCursorRaw col row => Sys2Proof.Machine.execSetCursorRaw col row s
  | .display on => Sys2Proof.Machine.execDisplay on s
  | .cursor on => Sys2Proof.Machine.execCursor on s
  | .blink on => Sys2Proof.Machine.execBlink on s
  | .direction leftToRight => Sys2Proof.Machine.execDirection leftToRight s
  | .autoshift on => Sys2Proof.Machine.execAutoshift on s
  | .backlight on => Sys2Proof.Machine.execBacklight on s
  | .print str => Sys2Proof.Machine.execPrint str s
  | .printChar c => Sys2Proof.Machine.execPrintChar c s
  | .createChar location bitmap => Sys2Proof.Machine.execCreateChar location bitmap s
  | .xb nibble bl e rw rs => Sys2Proof.Machine.execXb nibble bl e rw rs s
  | .hcClear => Sys2Proof.Machine.execHcClear s
  | .hcEntryMode left shift => Sys2Proof.Machine.execHcEntryMode left shift s
  | .hcDispCtrl disp curs blnk => Sys2Proof.Machine.execHcDispCtrl disp curs blnk s
  | .hcFuncSet eight two font => Sys2Proof.Machine.execHcFuncSet eight two font s
  | .hcSetCgram slot => Sys2Proof.Machine.execHcSetCgram slot s
  | .hcSetDdram addr => Sys2Proof.Machine.execHcSetDdram addr s
  | .hd c => Sys2Proof.Machine.execHd c s
  | .ab addr dir => Sys2Proof.Machine.execAb addr dir s

end Sys2Proof.Machine
end

