-- ==== Sys2Proof/Machine/Step.lean ====
section
/-! DEFINITION. One step (R28): a running operation goes on; a faulted run stays faulted (R186); an
idle block accepts the next operation the host presents, or waits for one (R212, R216). -/

namespace Sys2Proof.Machine

def step (s : State) : Host.Outcome State Fault Refusal :=
  match s.seq with
  | .startWait address failed after => attempt address failed after s
  | .faulted => .fault .deviceUnresponsive
  | .sending word =>
    match decodeOut s.cfg word with
    | .ok i => exec i (s.setSeq .idle)
    | .error e => rejected e (s.setSeq .idle)
  | .idle =>
    match s.port with
    | [] => .next s
    | record :: rest =>
      match decode record with
      | .ok i => exec i (s.setPort rest)
      | .error e => rejected e (s.setPort rest)

/-- The state with a word of the opcode table placed where the next step takes its instruction: a
word of the host port as the next record presented to the idle block, an output-side byte at the
sequencer. -/
def State.withFetchWord (s : State) (nbits w : Nat) : State :=
  match codeWordOfTable nbits w with
  | .port record => { s with seq := .idle, port := record :: s.port }
  | .out word => { s with seq := .sending word }

end Sys2Proof.Machine
end

