-- ==== Sys2Proof/Machine/Receiver.lean ====
section
/-! DEFINITION. The receiver view (R60) and the expander's lines (R51): what the far side can be
said to have received, read off a trace. Nothing here is state of the block (R36); it exists so that
a claim about the display can be stated. The view of a state exists only while `nackSeen` is false
(R38, R60, R185); the functions on lists of events are its parts. -/

namespace Sys2Proof.Machine

/-- The data bytes sent in transactions whose address byte was `da`, whatever was answered to them;
`at?` is the address byte of the transaction the list begins in. -/
def displayBytes (da : Byte) (at? : Option Byte) : List Event → List Byte
  | [] => []
  | .a b _ :: rest => displayBytes da (some b) rest
  | .p :: rest => displayBytes da none rest
  | .d b _ :: rest =>
    if at? = some da then b :: displayBytes da at? rest else displayBytes da at? rest
  | .cfg _ :: rest => displayBytes da at? rest
  | .s :: rest => displayBytes da at? rest
  | .sr :: rest => displayBytes da at? rest
  | .r _ _ :: rest => displayBytes da at? rest
  | .w _ :: rest => displayBytes da at? rest

/-- The expander's eight lines: the last byte written to it; not known before the first (R51, R213)
and not once a byte went unacknowledged (R185). -/
def State.expanderLines (s : State) : Option Byte :=
  if s.nackSeen then none
  else (displayBytes (s.cfg.devAddr &&& ~~~ s.cfg.dirMask) none s.trace).getLast?

/-- A nibble latched by the enable line's fall, with its RS and RW lines (R60). -/
structure Strobe where
  rs     : Bool
  rw     : Bool
  nibble : BitVec 4
  deriving DecidableEq, Repr

/-- Two adjacent bytes strobe: E high, then E low with the other lines as before (R60). -/
def isStrobe (x y : Byte) : Bool :=
  x.getLsbD 2 && !y.getLsbD 2 && x &&& 0xFB#8 == y

/-- What a strobe delivers, by its second byte (R60). -/
def strobeOf (y : Byte) : Strobe :=
  { rs := y.getLsbD 0, rw := y.getLsbD 1, nibble := y.extractLsb' 4 4 }

/-- The strobes among adjacent bytes, in order (R60). -/
def strobes : List Byte → List Strobe
  | [] => []
  | x :: rest =>
    match rest with
    | y :: _ => if isStrobe x y then strobeOf y :: strobes rest else strobes rest
    | [] => []

/-- Two strobes as one controller byte, high nibble first. No meaning with RW = 1 (R96, U6) or with
two values of RS. -/
def pairStrobes (hi lo : Strobe) : Option CtlByte :=
  if hi.rw || lo.rw || hi.rs != lo.rs then none
  else if hi.rs then some (.data (hi.nibble ++ lo.nibble))
  else some (.command (hi.nibble ++ lo.nibble))

/-- Strobes in pairs; an odd one at the end is no byte yet (R225), and is none where an LCD_INIT
follows. -/
def pairUp : List Strobe → List (Option CtlByte)
  | hi :: lo :: rest => pairStrobes hi lo :: pairUp rest
  | _ => []

/-- An LCD_INIT begins here: it alone makes the power-on wait (R140, R219). -/
def beginsInit : Event → Bool
  | .w n => n == Config.tPower
  | .cfg _ | .s | .sr | .a _ _ | .d _ _ | .r _ _ | .p => false

/-- Events cut where an LCD_INIT begins: those before the first, then those of each up to the next. -/
def splitAtInits : List Event → List Event × List (List Event)
  | [] => ([], [])
  | e :: rest =>
    let (here, later) := splitAtInits rest
    if beginsInit e then ([], here :: later) else (e :: here, later)

/-- The controller bytes since an LCD_INIT began, up to the next: those of the strobes after its
four single-nibble ones (R60). The bus is closed where an LCD_INIT begins. -/
def receivedSince (da : Byte) (events : List Event) : List (Option CtlByte) :=
  pairUp ((strobes (displayBytes da none events)).drop 4)

/-- The controller bytes in acknowledged events: those since each LCD_INIT, and none before the
first, where nothing has set the controller to 4-bit mode (R60, R68, log 16). -/
def receivedIn (da : Byte) (events : List Event) : List (Option CtlByte) :=
  (splitAtInits events).2.flatMap (receivedSince da)

/-- The receiver view of a state: what its trace delivered to the controller in 4-bit mode, and
nothing once a byte went unacknowledged (R38, R60, R185). -/
def State.received (s : State) : Option (List (Option CtlByte)) :=
  if s.nackSeen then none
  else some (receivedIn (s.cfg.devAddr &&& ~~~ s.cfg.dirMask) s.trace)

end Sys2Proof.Machine
end

