-- ==== Sys2Proof/Safety.lean ====
section
/-! DEFINITION. The terms claims are stated in: what the events of a push and of controller bytes
are, the end of a run and a clean run (R231), the register invariant (R25 to R33), and the grammar
of the bus (R118). -/

namespace Sys2Proof

/-! ## Which operations need what (R190's table) -/

/-- The operations that need an open transaction: REP_START, WRITE_BYTE, READ_BYTE, STOP, the nibble
operations and SETCURSOR_RAW. -/
def Instr.needsOpen : Instr → Bool
  | .repStart _ | .writeByte _ | .readByte _ | .stop
  | .push _ | .cmd4 _ | .cmd8 _ | .write _ | .setCursorRaw _ _ => true
  | .ffInit _ | .start _ | .startWait _ | .lcdInit _ _ | .clear | .setCursor _ _
  | .display _ | .cursor _ | .blink _ | .direction _ | .autoshift _ | .backlight _
  | .print _ | .printChar _ | .createChar _ _
  | .xb _ _ _ _ _ | .hcClear | .hcEntryMode _ _ | .hcDispCtrl _ _ _ | .hcFuncSet _ _ _
  | .hcSetCgram _ | .hcSetDdram _ | .hd _ | .ab _ _ => false

/-- The driver operations that open and close a transaction of their own (R150), LCD_INIT apart. -/
def Instr.isBracketed : Instr → Bool
  | .clear | .setCursor _ _
  | .display _ | .cursor _ | .blink _ | .direction _ | .autoshift _ | .backlight _
  | .print _ | .printChar _ | .createChar _ _ => true
  | .ffInit _ | .start _ | .startWait _ | .repStart _ | .writeByte _ | .readByte _ | .stop
  | .push _ | .cmd4 _ | .cmd8 _ | .write _ | .lcdInit _ _ | .setCursorRaw _ _
  | .xb _ _ _ _ _ | .hcClear | .hcEntryMode _ _ | .hcDispCtrl _ _ _ | .hcFuncSet _ _ _
  | .hcSetCgram _ | .hcSetDdram _ | .hd _ | .ab _ _ => false

/-- The nibble operations and SETCURSOR_RAW: the raw operations of R218. -/
def Instr.isRaw : Instr → Bool
  | .push _ | .cmd4 _ | .cmd8 _ | .write _ | .setCursorRaw _ _ => true
  | .ffInit _ | .start _ | .startWait _ | .repStart _ | .writeByte _ | .readByte _ | .stop
  | .lcdInit _ _ | .clear | .setCursor _ _
  | .display _ | .cursor _ | .blink _ | .direction _ | .autoshift _ | .backlight _
  | .print _ | .printChar _ | .createChar _ _
  | .xb _ _ _ _ _ | .hcClear | .hcEntryMode _ _ | .hcDispCtrl _ _ _ | .hcFuncSet _ _ _
  | .hcSetCgram _ | .hcSetDdram _ | .hd _ | .ab _ _ => false

end Sys2Proof

namespace Sys2Proof.Machine

/-! ## Events, written from 30_encoding.md and not from the operations -/

/-- The three events of one push of `x`, with the slave's two answers (R82, R130). -/
def pushEvents (p : Params) (backlightOn : Bool) (x : Byte) (k1 k2 : Ack) : List Event :=
  let bl := if backlightOn then Config.bl else 0x00#8
  let low := match p.pushLoBl with
    | .follow => (x &&& 0xF3#8) ||| bl
    | .low => x &&& 0xF3#8
  [.d ((x &&& 0xF3#8) ||| Config.e ||| bl) k1, .d low k2, .w Config.tSettle]

/-- The two push operands of a controller byte (R81). -/
def pushOperands : CtlByte → Byte × Byte
  | .command c => (c &&& 0xF0#8, (c <<< 4) &&& 0xF0#8)
  | .data c => ((c &&& 0xF0#8) ||| Config.rs, ((c <<< 4) &&& 0xF0#8) ||| Config.rs)

/-- The events of controller bytes in order; `k n` is the answer to the first byte sent (R81,
R101). -/
def bytesEvents (p : Params) (backlightOn : Bool) (k : Nat → Ack) : Nat → List CtlByte → List Event
  | _, [] => []
  | n, b :: rest =>
    pushEvents p backlightOn (pushOperands b).1 (k n) (k (n + 1))
      ++ pushEvents p backlightOn (pushOperands b).2 (k (n + 2)) (k (n + 3))
      ++ bytesEvents p backlightOn k (n + 4) rest

/-- Some of the `count` answers from the `first`-th on is NACK. -/
def State.nackAmong (s : State) (first count : Nat) : Bool :=
  (List.range count).any fun i => s.ack (first + i) == .nack

/-- The state after an operation that wrote no register of the display and no flag but the ghost:
events emitted, answers drawn, those from the `skip`-th on noted (R38), the old result gone. -/
def State.after (s : State) (events : List Event) (skip drawn : Nat) (result : Result) : State :=
  { s with
    trace := s.trace ++ events
    nackSeen := s.nackSeen || s.nackAmong skip (drawn - skip)
    env := { s.env with acksDrawn := s.env.acksDrawn + drawn }
    result := result }

/-- The events of a bracket around `body` whose opening start is acknowledged at once (R150). -/
def bracketEvents (p : Params) (backlightOn : Bool) (k : Nat → Ack) (body : List CtlByte) :
    List Event :=
  [.s, .a (p.devAddr &&& ~~~ p.dirMask) .ack] ++ bytesEvents p backlightOn k 1 body ++ [.p]

/-- What goes out between failed attempts of START_WAIT: a stop condition if `RETRY_STOP` (R112). -/
def retryEvents (p : Params) : List Event :=
  match p.retryStop with
  | true => [.p]
  | false => []

/-- The events of LCD_INIT whose opening start is acknowledged at once, step by step (R140, R142);
`k` gives the answers, the address byte's first. -/
def initEvents (p : Params) (rows : Byte) (k : Nat → Ack) : List Event :=
  let eight := (p.cmdFunctionSet ||| p.mode8Bit) &&& 0xF0#8
  let four := (p.cmdFunctionSet ||| p.mode4Bit) &&& 0xF0#8
  let flags := (if rows.toNat > 1 then p.twoLine else 0x00#8) ||| p.fontDefault ||| p.mode4Bit
  [.w 40000, .s, .a (p.devAddr &&& ~~~ p.dirMask) .ack]
    ++ pushEvents p true eight (k 1) (k 2) ++ [.w 4500]
    ++ pushEvents p true eight (k 3) (k 4) ++ [.w 150]
    ++ pushEvents p true eight (k 5) (k 6)
    ++ pushEvents p true four (k 7) (k 8)
    ++ bytesEvents p true k 9
      [.command (p.cmdFunctionSet ||| flags),
       .command (p.cmdDisplayControl ||| p.displayOn),
       .command p.cmdClearDisplay,
       .command (p.cmdEntryModeSet ||| (p.leftEntry ||| p.shiftDecrement))]
    ++ [.p]

/-- The display registers after LCD_INIT (R140). -/
def initRegisters (p : Params) (columns rows : Byte) : DisplayState :=
  { backlightOn := true
    columnCount := columns
    lineCount := rows
    rowOffsets := #v[0x00#8, 0x40#8, columns, 0x40#8 + columns]
    functionFlags :=
      (if rows.toNat > 1 then p.twoLine else 0x00#8) ||| p.fontDefault ||| p.mode4Bit
    controlFlags := p.displayOn
    entryModeFlags := p.leftEntry ||| p.shiftDecrement }

/-- Events with the slave's answers forgotten: what the block itself sends (R183). -/
def Event.sent : Event → Event
  | .a b _ => .a b .ack
  | .d b _ => .d b .ack
  | .cfg hz => .cfg hz
  | .s => .s
  | .sr => .sr
  | .r b k => .r b k
  | .p => .p
  | .w n => .w n

/-! ## What a bracketed operation does, written from 43_commands.md and 44_text_glyph.md -/

/-- A register with one flag set or cleared, its other bits kept (R154). -/
def flagWritten (reg bit : Byte) (v : Bool) : Byte :=
  (reg &&& ~~~ bit) ||| if v then bit else 0x00#8

/-- A bracketed operation as the registers it leaves before its opening start and the controller
bytes it sends after it: CLEAR (R151), SETCURSOR (R152, R153), the toggles (R154 to R159), BACKLIGHT
(R160), PRINT (R170), PRINTCHAR (R171), CREATECHAR (R172). None for the other instructions, for a
bitmap that is not eight rows, and for a cursor placement under an illegal geometry. -/
def State.bracketOf (s : State) : Instr → Option (DisplayState × List CtlByte)
  | .clear => some (s.ds, [.command s.cfg.cmdClearDisplay])
  | .setCursor col row =>
    let c := min (max col.toNat 1) s.ds.columnCount.toNat
    let r := min (max row.toNat 1) s.ds.lineCount.toNat
    match c, r with
    | c' + 1, r' + 1 =>
      match s.ds.rowOffsets.toList[r']? with
      | some offset =>
        some (s.ds, [.command (s.cfg.cmdSetDdramAddr ||| (BitVec.ofNat 8 c' + offset))])
      | none => none
    | _, _ => none
  | .display v =>
    let reg := flagWritten s.ds.controlFlags s.cfg.displayOn v
    some ({ s.ds with controlFlags := reg }, [.command (s.cfg.cmdDisplayControl ||| reg)])
  | .cursor v =>
    let reg := flagWritten s.ds.controlFlags s.cfg.cursorOn v
    some ({ s.ds with controlFlags := reg }, [.command (s.cfg.cmdDisplayControl ||| reg)])
  | .blink v =>
    let reg := flagWritten s.ds.controlFlags s.cfg.blinkOn v
    some ({ s.ds with controlFlags := reg }, [.command (s.cfg.cmdDisplayControl ||| reg)])
  | .direction v =>
    let reg := flagWritten s.ds.entryModeFlags s.cfg.leftEntry v
    some ({ s.ds with entryModeFlags := reg }, [.command (s.cfg.cmdEntryModeSet ||| reg)])
  | .autoshift v =>
    let reg := flagWritten s.ds.entryModeFlags s.cfg.shiftIncrement v
    some ({ s.ds with entryModeFlags := reg }, [.command (s.cfg.cmdEntryModeSet ||| reg)])
  | .backlight v =>
    some ({ s.ds with backlightOn := v },
      [.command (s.cfg.cmdDisplayControl ||| s.ds.controlFlags)])
  | .print str => some (s.ds, (str.takeWhile (· != s.cfg.terminator)).map .data)
  | .printChar c => some (s.ds, [.data c])
  | .createChar location bitmap =>
    match bitmap.length == 8 with
    | true => some (s.ds, .command (s.cfg.cmdSetCgramAddr ||| ((location &&& 0x07#8) <<< 3))
        :: bitmap.map fun row => .data (row &&& 0x1F#8))
    | false => none
  | .ffInit _ | .start _ | .startWait _ | .repStart _ | .writeByte _ | .readByte _ | .stop
  | .push _ | .cmd4 _ | .cmd8 _ | .write _ | .lcdInit _ _ | .setCursorRaw _ _
  | .xb _ _ _ _ _ | .hcClear | .hcEntryMode _ _ | .hcDispCtrl _ _ _ | .hcFuncSet _ _ _
  | .hcSetCgram _ | .hcSetDdram _ | .hd _ | .ab _ _ => none

/-- The checks of a bracketed operation pass (R150). -/
abbrev State.BracketReady (s : State) : Prop :=
  s.ffReady = true ∧ s.dsValid = true ∧ s.busOpen = false

/-- The checks of LCD_INIT pass (R140). -/
abbrev State.InitReady (s : State) (columns rows : Byte) : Prop :=
  s.ffReady = true ∧ s.busOpen = false ∧ 1 ≤ rows.toNat ∧ rows.toNat ≤ 4 ∧ 1 ≤ columns.toNat

/-- `f` attempts that fail are fewer than are allowed (R112). -/
abbrev State.AttemptsLeft (s : State) (f : Nat) : Prop :=
  ∀ m, s.cfg.maxAttempts = some m → f < m

/-- `f` failed attempts at an address, one after the other (R112). -/
def failedAttempts (p : Params) (address : Byte) (f : Nat) : List Event :=
  (List.replicate f ([.s, .a address .nack] ++ retryEvents p)).flatten

/-- The microseconds an event waits (R230). -/
def Event.micros : Event → Nat
  | .w n => n
  | .cfg _ | .s | .sr | .a _ _ | .d _ _ | .r _ _ | .p => 0

/-- The event is a data byte (R101). -/
def Event.isData : Event → Bool
  | .d _ _ => true
  | .cfg _ | .s | .sr | .a _ _ | .r _ _ | .p | .w _ => false

/-- The event is a wait (R101). -/
def Event.isWait : Event → Bool
  | .w _ => true
  | .cfg _ | .s | .sr | .a _ _ | .d _ _ | .r _ _ | .p => false

/-! ## Refusals (R188, R190) -/

/-- A row of R190's table: the reason is raised for this host operation in this state. `ReservedOp`
is raised before there is an operation (R95). -/
def State.raises (s : State) (i : Instr) : Reason → Bool
  | .reservedOp => false
  | .notReady => !s.ffReady && !(i matches .ffInit _)
  | .notInitialised => !s.dsValid && (i.isRaw || i.isBracketed)
  | .busOpen => s.busOpen && !i.needsOpen
  | .busClosed => !s.busOpen && i.needsOpen
  | .badGeometry =>
    match i with
    | .lcdInit columns rows => rows.toNat == 0 || rows.toNat > 4 || columns.toNat == 0
    | _ => false
  | .badOperand =>
    match i with
    | .createChar _ bitmap => bitmap.length != 8
    | _ => false

/-- The reason reported: the first that is raised, in R188's order. -/
def State.reported (s : State) (i : Instr) : Option Reason :=
  [.reservedOp, .notReady, .notInitialised, .busOpen, .busClosed, .badGeometry, .badOperand].find?
    (s.raises i)

/-! ## Runs (R231) -/

/-- The run has ended: nothing is running and nothing more is presented. -/
abbrev State.Ended (s : State) : Prop := s.seq = .idle ∧ s.port = []

/-- The run is clean. -/
abbrev State.Clean (s : State) : Prop := s.refused = false ∧ s.nackSeen = false ∧ s.busOpen = false

/-! ## The registers (R25 to R33) -/

/-- What holds of the display registers once `dsValid` holds. -/
abbrev DisplayState.Legal (p : Params) (d : DisplayState) : Prop :=
  1 ≤ d.columnCount.toNat ∧ 1 ≤ d.lineCount.toNat ∧ d.lineCount.toNat ≤ 4
    ∧ d.rowOffsets = #v[0x00#8, 0x40#8, d.columnCount, 0x40#8 + d.columnCount]
    ∧ d.functionFlags =
        (if d.lineCount.toNat > 1 then p.twoLine else 0x00#8) ||| p.fontDefault ||| p.mode4Bit
    ∧ d.controlFlags &&& ~~~ (p.displayOn ||| p.cursorOn ||| p.blinkOn) = 0x00#8
    ∧ d.entryModeFlags &&& ~~~ (p.leftEntry ||| p.shiftIncrement) =
        p.shiftDecrement &&& ~~~ (p.leftEntry ||| p.shiftIncrement)

/-- What is left to do after the retrying start is something the checks let through, at the
display's address where it is a driver operation's; LCD_INIT has switched the backlight on. -/
abbrev After.Legal (s : State) (address : Byte) : After → Prop
  | .hostStart => True
  | .bracket _ => s.dsValid = true ∧ address = s.cfg.devAddr &&& ~~~ s.cfg.dirMask
  | .handshake columns rows =>
    s.ds.backlightOn = true ∧ address = s.cfg.devAddr &&& ~~~ s.cfg.dirMask
      ∧ 1 ≤ columns.toNat ∧ 1 ≤ rows.toNat ∧ rows.toNat ≤ 4

/-- The sequencer is idle, in a retry loop it may be in, or faulted under a finite `MAX_ATTEMPTS`; no
run from reset stands at the sending of a single byte. -/
abbrev State.SeqLegal (s : State) : Prop :=
  match s.seq with
  | .idle => True
  | .startWait address failed after =>
    s.ffReady = true ∧ s.busOpen = false ∧ exhausted s.cfg failed = false ∧ after.Legal s address
  | .faulted => s.busOpen = false ∧ s.cfg.maxAttempts.isSome = true ∧ s.cfg.retryStop = true
  | .sending _ => False

/-- The invariant of the block. -/
abbrev State.Inv (s : State) : Prop :=
  (s.busOpen = true → s.ffReady = true)
    ∧ (s.dsValid = true → s.ffReady = true)
    ∧ (s.dsValid = true → s.ds.Legal s.cfg)
    ∧ s.SeqLegal
    ∧ s.refused = s.refusal.isSome

/-! ## The grammar of the bus (R118) -/

/-- Where a trace stands on the bus: before its first FF_INIT, between transactions, after a start
condition, inside a transaction. -/
inductive Phase where
  | unconfigured
  | closed
  | addressing
  | opened
  deriving DecidableEq, Repr

/-- The phase after an event, `none` where R118 has no such event there. A wait moves nothing. -/
def Phase.next (ph : Phase) (e : Event) : Option Phase :=
  match e with
  | .cfg _ => match ph with
    | .unconfigured | .closed => some .closed
    | .addressing | .opened => none
  | .s => match ph with
    | .closed => some .addressing
    | .unconfigured | .addressing | .opened => none
  | .a _ _ => match ph with
    | .addressing => some .opened
    | .unconfigured | .closed | .opened => none
  | .sr => match ph with
    | .opened => some .addressing
    | .unconfigured | .closed | .addressing => none
  | .d _ _ | .r _ _ => match ph with
    | .opened => some .opened
    | .unconfigured | .closed | .addressing => none
  | .p => match ph with
    | .opened => some .closed
    | .unconfigured | .closed | .addressing => none
  | .w _ => match ph with
    | .closed => some .closed
    | .opened => some .opened
    | .unconfigured | .addressing => none

/-- The phase after a list of events. -/
def Phase.run : Phase → List Event → Option Phase
  | ph, [] => some ph
  | ph, e :: rest =>
    match ph.next e with
    | some ph' => ph'.run rest
    | none => none

/-- The phase `ffReady` and `busOpen` stand for (R22, R23). -/
def State.phase (s : State) : Phase :=
  match s.busOpen, s.ffReady with
  | true, _ => .opened
  | false, true => .closed
  | false, false => .unconfigured

/-- The trace obeys R118's grammar, its leading FF_INIT included, and the flags say where it stands. -/
abbrev State.BusGrammar (s : State) : Prop :=
  Phase.run .unconfigured s.trace = some s.phase

end Sys2Proof.Machine
end

