-- ==== Sys2Proof/Certificates/Slice0/Obligations.lean ====
section
/-! DEFINITION. The statements for the provers. Each docstring names the rule it formalises. The
answers of the slave are `s.ack 0`, `s.ack 1`, …, in the order the bytes go out; parameters are the
state's own, so a statement holds for every configuration it does not exclude. -/

open Sys2Proof Sys2Proof.Machine

/-! ## Reset -/

/-- R211, R39: the reset values the spec states, for every field it states one for. -/
def Obligations.ResetValuesOfTheSpec : Prop :=
  State.reset.ffReady = false ∧ State.reset.busOpen = false ∧ State.reset.dsValid = false
    ∧ State.reset.seq = .idle ∧ State.reset.result = .notValid
    ∧ State.reset.nackSeen = false ∧ State.reset.refused = false

/-- R213: the block emits nothing at reset. -/
def Obligations.NothingEmittedAtReset : Prop :=
  State.reset.trace = []

/-! ## Steps -/

/-- R28, R92: an idle block accepts the record the host presents and runs the operation it selects;
nothing but the record is consumed. A single output-side byte at the sequencer is sent likewise
(the model's own, log 13). -/
def Obligations.StepRunsTheDecodedInstruction : Prop :=
  (∀ (s : State) (record : PortRecord) (rest : List PortRecord) (i : Instr),
      s.seq = .idle → s.port = record :: rest → decode record = .ok i →
      step s = exec i { s with port := rest })
    ∧ (∀ (s : State) (word : OutWord) (i : Instr),
      s.seq = .sending word → decodeOut s.cfg word = .ok i →
      step s = exec i { s with seq := .idle })

/-- R95: a reserved operation code is refused, with no other change of state and no event, in every
idle state. -/
def Obligations.ReservedCodesAreRefused : Prop :=
  ∀ (s : State) (record : PortRecord) (rest : List PortRecord),
    s.seq = .idle → s.port = record :: rest →
    record.opSel ∈ [0x07#5, 0x0C#5, 0x0D#5, 0x0E#5, 0x0F#5, 0x1D#5, 0x1E#5, 0x1F#5] →
    step s = .next { s with port := rest, refused := true, refusal := some .reservedOp }

/-- R212: an idle block with nothing presented waits. -/
def Obligations.IdleBlockWaitsForTheHost : Prop :=
  ∀ s : State, s.seq = .idle → s.port = [] → step s = .next s

/-- R28 (a), R216: while an operation runs no operation is accepted, and what the host would present
has no influence: two states that differ only in what is presented make the same step. -/
def Obligations.BusyBlockAcceptsNothing : Prop :=
  ∀ (s : State) (address : Byte) (failed : Nat) (after : After) (presented : List PortRecord)
    (t : State), s.seq = .startWait address failed after → step s = .next t →
    t.port = s.port ∧ step { s with port := presented } = .next { t with port := presented }

/-! ## Frame formatter -/

/-- R110: FF_INIT, with the bus closed and with it open. -/
def Obligations.FfInitConfiguresTheBus : Prop :=
  ∀ (hz : Hz) (s : State),
    (s.busOpen = false →
      exec (.ffInit hz) s = .next
        { s with
          bus := { clockHz := hz, timing := Config.timingOf hz }
          ffReady := true
          trace := s.trace ++ [.cfg hz]
          result := .notValid })
    ∧ (s.busOpen = true →
      exec (.ffInit hz) s = .next { s with refused := true, refusal := some .busOpen })

/-- R111: START, whatever the slave answers, and its two refusals. -/
def Obligations.StartMakesOneAttempt : Prop :=
  ∀ (address : Byte) (s : State),
    (s.ffReady = true → s.busOpen = false →
      exec (.start address) s = .next
        { s.after [.s, .a address (s.ack 0)] 0 1 (.status (s.ack 0 == .ack)) with busOpen := true })
    ∧ (s.ffReady = false →
      exec (.start address) s = .next { s with refused := true, refusal := some .notReady })
    ∧ (s.ffReady = true → s.busOpen = true →
      exec (.start address) s = .next { s with refused := true, refusal := some .busOpen })

/-- R112: START_WAIT acknowledged at once. -/
def Obligations.StartWaitAcknowledged : Prop :=
  ∀ (address : Byte) (s : State), s.ffReady = true → s.busOpen = false → s.ack 0 = .ack →
    exec (.startWait address) s = .next
      { s.after [.s, .a address .ack] 1 1 (.status true) with busOpen := true, seq := .idle }

/-- R112: START_WAIT not acknowledged, attempts left: a stop condition (if `RETRY_STOP`), the ghost
bit and `busOpen` as they were, and the sequencer in the retry loop with one failed attempt. -/
def Obligations.StartWaitEntersTheRetryLoop : Prop :=
  ∀ (address : Byte) (s : State), s.ffReady = true → s.busOpen = false → s.ack 0 = .nack →
    (∀ m, s.cfg.maxAttempts = some m → 1 < m) →
    exec (.startWait address) s = .next
      { s.after ([.s, .a address .nack] ++ retryEvents s.cfg) 1 1 .notValid with
        seq := .startWait address 1 .hostStart }

/-- R113: REP_START, and its two refusals. -/
def Obligations.RepeatedStartKeepsTheBus : Prop :=
  ∀ (address : Byte) (s : State),
    (s.ffReady = true → s.busOpen = true →
      exec (.repStart address) s = .next
        (s.after [.sr, .a address (s.ack 0)] 0 1 (.status (s.ack 0 == .ack))))
    ∧ (s.ffReady = false →
      exec (.repStart address) s = .next { s with refused := true, refusal := some .notReady })
    ∧ (s.ffReady = true → s.busOpen = false →
      exec (.repStart address) s = .next { s with refused := true, refusal := some .busClosed })

/-- R114: WRITE_BYTE; a NACK changes nothing but `ok` and the ghost bit. Its two refusals. -/
def Obligations.WriteByteSendsItsByte : Prop :=
  ∀ (data : Byte) (s : State),
    (s.ffReady = true → s.busOpen = true →
      exec (.writeByte data) s = .next
        (s.after [.d data (s.ack 0)] 0 1 (.status (s.ack 0 == .ack))))
    ∧ (s.ffReady = false →
      exec (.writeByte data) s = .next { s with refused := true, refusal := some .notReady })
    ∧ (s.ffReady = true → s.busOpen = false →
      exec (.writeByte data) s = .next { s with refused := true, refusal := some .busClosed })

/-- R115: READ_BYTE returns the byte the slave sends, whatever it is. Its two refusals. -/
def Obligations.ReadByteReturnsTheSlavesByte : Prop :=
  ∀ (requestAck : Bool) (s : State),
    (s.ffReady = true → s.busOpen = true →
      exec (.readByte requestAck) s = .next
        { s with
          trace := s.trace ++ [.r s.slaveByte (if requestAck then .ack else .nack)]
          result := .readData s.slaveByte
          env := { s.env with bytesDrawn := s.env.bytesDrawn + 1 } })
    ∧ (s.ffReady = false →
      exec (.readByte requestAck) s = .next { s with refused := true, refusal := some .notReady })
    ∧ (s.ffReady = true → s.busOpen = false →
      exec (.readByte requestAck) s = .next { s with refused := true, refusal := some .busClosed })

/-- R116: STOP, and its two refusals. -/
def Obligations.StopReleasesTheBus : Prop :=
  ∀ s : State,
    (s.ffReady = true → s.busOpen = true →
      exec .stop s = .next
        { s with trace := s.trace ++ [.p], busOpen := false, result := .notValid })
    ∧ (s.ffReady = false →
      exec .stop s = .next { s with refused := true, refusal := some .notReady })
    ∧ (s.ffReady = true → s.busOpen = false →
      exec .stop s = .next { s with refused := true, refusal := some .busClosed })

/-! ## Nibble operations -/

/-- R82, R130: PUSH sends `x` with E high and BL forced, then with E low, then settles; bits 2 and 3
of the operand have no influence, and no register is written. -/
def Obligations.PushStrobesTheEnableLine : Prop :=
  ∀ (x : Byte) (s : State), s.ffReady = true → s.dsValid = true → s.busOpen = true →
    s.cfg.pushLoBl = .follow →
    exec (.push x) s = .next
      (s.after
        [.d ((x &&& 0xF3#8) ||| 0x04#8 ||| if s.ds.backlightOn then 0x08#8 else 0x00#8) (s.ack 0),
         .d ((x &&& 0xF3#8) ||| if s.ds.backlightOn then 0x08#8 else 0x00#8) (s.ack 1),
         .w 100] 0 2 .notValid)

/-- R130, C2: PUSH for both values of `PUSH_LO_BL`; under `low` the second byte is `x & 0xF3`. -/
def Obligations.PushForEitherBacklightParameter : Prop :=
  ∀ (x : Byte) (s : State), s.ffReady = true → s.dsValid = true → s.busOpen = true →
    exec (.push x) s = .next
      (s.after (pushEvents s.cfg s.ds.backlightOn x (s.ack 0) (s.ack 1)) 0 2 .notValid)

/-- R131: CMD4 is two pushes, of `cmd & 0xF0` and `(cmd << 4) & 0xF0`. -/
def Obligations.Cmd4SendsTwoNibbles : Prop :=
  ∀ (cmd : Byte) (s : State), s.ffReady = true → s.dsValid = true → s.busOpen = true →
    exec (.cmd4 cmd) s = .next
      (s.after
        (pushEvents s.cfg s.ds.backlightOn (cmd &&& 0xF0#8) (s.ack 0) (s.ack 1)
          ++ pushEvents s.cfg s.ds.backlightOn ((cmd <<< 4) &&& 0xF0#8) (s.ack 2) (s.ack 3))
        0 4 .notValid)

/-- R132: CMD8 is one push, of `cmd & 0xF0`. -/
def Obligations.Cmd8SendsTheHighNibble : Prop :=
  ∀ (cmd : Byte) (s : State), s.ffReady = true → s.dsValid = true → s.busOpen = true →
    exec (.cmd8 cmd) s = .next
      (s.after (pushEvents s.cfg s.ds.backlightOn (cmd &&& 0xF0#8) (s.ack 0) (s.ack 1))
        0 2 .notValid)

/-- R133: WRITE is two pushes with RS set. -/
def Obligations.WriteSendsTwoDataNibbles : Prop :=
  ∀ (c : Byte) (s : State), s.ffReady = true → s.dsValid = true → s.busOpen = true →
    exec (.write c) s = .next
      (s.after
        (pushEvents s.cfg s.ds.backlightOn ((c &&& 0xF0#8) ||| 0x01#8) (s.ack 0) (s.ack 1)
          ++ pushEvents s.cfg s.ds.backlightOn (((c <<< 4) &&& 0xF0#8) ||| 0x01#8)
            (s.ack 2) (s.ack 3))
        0 4 .notValid)

/-! ## Initialisation -/

/-- R140, R142: LCD_INIT with a device that acknowledges its address at once writes all seven
registers, emits the handshake step by step, and closes the bus. -/
def Obligations.LcdInitRunsTheHandshake : Prop :=
  ∀ (columns rows : Byte) (s : State), s.ffReady = true → s.busOpen = false →
    1 ≤ rows.toNat → rows.toNat ≤ 4 → 1 ≤ columns.toNat → s.ack 0 = .ack →
    exec (.lcdInit columns rows) s = .next
      { s.after (initEvents s.cfg rows s.ack) 1 25 .notValid with
        ds := initRegisters s.cfg columns rows
        dsValid := true
        busOpen := false
        seq := .idle }

/-- R140 corner case f: a device that does not acknowledge leaves LCD_INIT in its opening start with
`backlightOn` written, the power-on wait made, and nothing else, for as long as attempts are left.
That it then stands in the retry loop with one failed attempt, at a sequencer position that says so,
is the model's grain (log 7). -/
def Obligations.LcdInitWaitsInItsOpeningStart : Prop :=
  ∀ (columns rows : Byte) (s : State), s.InitReady columns rows → s.ack 0 = .nack →
    s.AttemptsLeft 1 →
    exec (.lcdInit columns rows) s = .next
      { s.after ([.w 40000, .s, .a (s.cfg.devAddr &&& ~~~ s.cfg.dirMask) .nack]
          ++ retryEvents s.cfg) 1 1 .notValid with
        ds := { s.ds with backlightOn := true }
        seq := .startWait (s.cfg.devAddr &&& ~~~ s.cfg.dirMask) 1 (.handshake columns rows) }

/-- R230: the waits among the events that one LCD_INIT appends, whose device acknowledges at once, add
up to 45 850 µs. -/
def Obligations.LcdInitWaitsAddUp : Prop :=
  ∀ (columns rows : Byte) (s : State), s.InitReady columns rows → s.ack 0 = .ack →
    ∃ (t : State) (events : List Event), exec (.lcdInit columns rows) s = .next t
      ∧ t.trace = s.trace ++ events ∧ (events.map Event.micros).sum = 45850

/-! ## Command operations -/

/-- R151: CLEAR. -/
def Obligations.ClearSendsClearDisplay : Prop :=
  ∀ s : State, s.ffReady = true → s.dsValid = true → s.busOpen = false → s.ack 0 = .ack →
    exec .clear s = .next
      { s.after (bracketEvents s.cfg s.ds.backlightOn s.ack [.command s.cfg.cmdClearDisplay])
          1 5 .notValid with seq := .idle }

/-- R152, R153: SETCURSOR clamps column and row into `[1, columnCount]` and `[1, lineCount]` and
sends `CMD_SETDDRAMADDR | (c - 1) + rowOffsets[r - 1]`, modulo 256 and unmasked. -/
def Obligations.SetCursorSendsTheClampedAddress : Prop :=
  ∀ (col row : Byte) (s : State) (r : Fin 4), s.ffReady = true → s.dsValid = true →
    s.busOpen = false → s.ack 0 = .ack →
    1 ≤ s.ds.columnCount.toNat →
    r.val + 1 = min (max row.toNat 1) s.ds.lineCount.toNat →
    exec (.setCursor col row) s = .next
      { s.after (bracketEvents s.cfg s.ds.backlightOn s.ack
          [.command (s.cfg.cmdSetDdramAddr |||
            (BitVec.ofNat 8 (min (max col.toNat 1) s.ds.columnCount.toNat - 1)
              + s.ds.rowOffsets[r]))])
          1 5 .notValid with seq := .idle }

/-- R152: SETCURSOR_RAW sends the same command in the transaction the host holds open. -/
def Obligations.SetCursorRawSendsTheClampedAddress : Prop :=
  ∀ (col row : Byte) (s : State) (r : Fin 4), s.ffReady = true → s.dsValid = true →
    s.busOpen = true →
    1 ≤ s.ds.columnCount.toNat →
    r.val + 1 = min (max row.toNat 1) s.ds.lineCount.toNat →
    exec (.setCursorRaw col row) s = .next
      (s.after (bytesEvents s.cfg s.ds.backlightOn s.ack 0
          [.command (s.cfg.cmdSetDdramAddr |||
            (BitVec.ofNat 8 (min (max col.toNat 1) s.ds.columnCount.toNat - 1)
              + s.ds.rowOffsets[r]))])
          0 4 .notValid)

/-- R152 corner case c: once the display registers are legal the row index is always valid, so a
cursor placement never reads past the row offsets. -/
def Obligations.LegalRegistersGiveACursorAddress : Prop :=
  ∀ (p : Params) (d : DisplayState) (col row : Byte), d.Legal p →
    ∃ address, cursorAddress d col row = .ok address

/-- R154 to R157: DISPLAY, CURSOR and BLINK clear their bit of `controlFlags`, set it if the operand
is 1, keep the other bits, and send the whole register. -/
def Obligations.ControlTogglesResendTheRegister : Prop :=
  ∀ (v : Bool) (s : State) (i : Instr) (bit : Byte), s.ffReady = true → s.dsValid = true →
    s.busOpen = false → s.ack 0 = .ack →
    (i, bit) ∈ [(Instr.display v, s.cfg.displayOn), (.cursor v, s.cfg.cursorOn),
      (.blink v, s.cfg.blinkOn)] →
    let reg := (s.ds.controlFlags &&& ~~~ bit) ||| if v then bit else 0x00#8
    exec i s = .next
      { s.after (bracketEvents s.cfg s.ds.backlightOn s.ack
          [.command (s.cfg.cmdDisplayControl ||| reg)]) 1 5 .notValid with
        ds := { s.ds with controlFlags := reg }
        seq := .idle }

/-- R154, R158, R159: DIRECTION and AUTOSHIFT, on `entryModeFlags`. -/
def Obligations.EntryModeTogglesResendTheRegister : Prop :=
  ∀ (v : Bool) (s : State) (i : Instr) (bit : Byte), s.ffReady = true → s.dsValid = true →
    s.busOpen = false → s.ack 0 = .ack →
    (i, bit) ∈ [(Instr.direction v, s.cfg.leftEntry), (.autoshift v, s.cfg.shiftIncrement)] →
    let reg := (s.ds.entryModeFlags &&& ~~~ bit) ||| if v then bit else 0x00#8
    exec i s = .next
      { s.after (bracketEvents s.cfg s.ds.backlightOn s.ack
          [.command (s.cfg.cmdEntryModeSet ||| reg)]) 1 5 .notValid with
        ds := { s.ds with entryModeFlags := reg }
        seq := .idle }

/-- R57: repeating a toggle with the same operand leaves the registers as the first left them and
sends the same bytes again. -/
def Obligations.RepeatedToggleIsIdempotent : Prop :=
  ∀ (v : Bool) (i : Instr) (s t u : State),
    i ∈ [Instr.display v, .cursor v, .blink v, .direction v, .autoshift v, .backlight v] →
    s.BracketReady → s.ack 0 = .ack → t.ack 0 = .ack →
    exec i s = .next t → exec i t = .next u →
    u.ds = t.ds ∧ ∃ first second : List Event,
      t.trace = s.trace ++ first ∧ u.trace = t.trace ++ second
        ∧ first.map Event.sent = second.map Event.sent

/-- R160: BACKLIGHT writes `backlightOn` before it opens the transaction, so its own bytes carry the
new BL, and sends `controlFlags` again unchanged. -/
def Obligations.BacklightResendsDisplayControl : Prop :=
  ∀ (v : Bool) (s : State), s.ffReady = true → s.dsValid = true → s.busOpen = false →
    s.ack 0 = .ack →
    exec (.backlight v) s = .next
      { s.after (bracketEvents s.cfg v s.ack
          [.command (s.cfg.cmdDisplayControl ||| s.ds.controlFlags)]) 1 5 .notValid with
        ds := { s.ds with backlightOn := v }
        seq := .idle }

/-- R154, R160, D24: where the opening start of a bracketed operation is not acknowledged, the
register it owns (every toggle's, BACKLIGHT's) already holds the new value `d` has, and nothing of
`body` is sent. That the operation then stands in the retry loop with one failed attempt, at a
sequencer position that says so, is the model's grain (log 7). -/
def Obligations.BracketedOperationWritesBeforeItsStart : Prop :=
  ∀ (i : Instr) (d : DisplayState) (body : List CtlByte) (s : State),
    s.bracketOf i = some (d, body) → s.BracketReady → s.ack 0 = .nack → s.AttemptsLeft 1 →
    exec i s = .next
      { s.after ([.s, .a (s.cfg.devAddr &&& ~~~ s.cfg.dirMask) .nack] ++ retryEvents s.cfg)
          1 1 .notValid with
        ds := d
        seq := .startWait (s.cfg.devAddr &&& ~~~ s.cfg.dirMask) 1 (.bracket body) }

/-! ## Text and glyphs -/

/-- R170, R94: PRINT sends the bytes before the first terminator, or all of them where there is
none, as data in one transaction. -/
def Obligations.PrintSendsUpToTheTerminator : Prop :=
  ∀ (text rest : List Byte) (s : State), s.ffReady = true → s.dsValid = true →
    s.busOpen = false → s.ack 0 = .ack → (∀ c ∈ text, c ≠ s.cfg.terminator) →
    let t : State :=
      { s.after (bracketEvents s.cfg s.ds.backlightOn s.ack (text.map CtlByte.data))
          1 (1 + 4 * text.length) .notValid with seq := .idle }
    exec (.print text) s = .next t
      ∧ exec (.print (text ++ s.cfg.terminator :: rest)) s = .next t

/-- R171: PRINTCHAR sends its byte whatever it is. -/
def Obligations.PrintCharSendsOneDataByte : Prop :=
  ∀ (c : Byte) (s : State), s.ffReady = true → s.dsValid = true → s.busOpen = false →
    s.ack 0 = .ack →
    exec (.printChar c) s = .next
      { s.after (bracketEvents s.cfg s.ds.backlightOn s.ack [.data c]) 1 5 .notValid with
        seq := .idle }

/-- R172: CREATECHAR sends the slot's address and eight rows of five bits in one transaction. -/
def Obligations.CreateCharSendsEightRows : Prop :=
  ∀ (location : Byte) (bitmap : List Byte) (s : State), s.ffReady = true → s.dsValid = true →
    s.busOpen = false → s.ack 0 = .ack → bitmap.length = 8 →
    exec (.createChar location bitmap) s = .next
      { s.after (bracketEvents s.cfg s.ds.backlightOn s.ack
          (.command (s.cfg.cmdSetCgramAddr ||| ((location &&& 0x07#8) <<< 3))
            :: bitmap.map fun row => .data (row &&& 0x1F#8)))
          1 37 .notValid with seq := .idle }

/-! ## Output-side formats -/

/-- R80, R51: an expander byte sent by itself inside the open transaction (the model's reading of a
format as the sending of its byte, log 13). -/
def Obligations.ExpanderByteIsOneDataByte : Prop :=
  ∀ (nibble : BitVec 4) (bl e rw rs : Bool) (s : State), s.ffReady = true → s.busOpen = true →
    exec (.xb nibble bl e rw rs) s = .next
      (s.after [.d (nibble ++ (BitVec.ofBool bl ++ BitVec.ofBool e ++ BitVec.ofBool rw
        ++ BitVec.ofBool rs)) (s.ack 0)] 0 1 .notValid)

/-- R83 to R89, R103: under every configuration each command format sends the byte its encoding has
under the configuration's names, as two nibbles with RS = 0. That the sending of its byte is a
format's meaning is the model's choice (log 13); that an 8-bit function-set is sent as its high
nibble alone, that the ill-formed function-set bytes (the font bit, or l with n) are sent like the
others, and what the fields are where `SHIFT_DECREMENT` or `FONT_DEFAULT` is not 0, is the model's
reading (log 14). -/
def Obligations.CommandFormatsSendTheirPattern : Prop :=
  (∀ (two font : Bool) (byte : Byte) (s : State), s.ffReady = true → s.dsValid = true →
      s.busOpen = true → encode s.cfg (.hcFuncSet true two font) = .out (.hc byte) →
      exec (.hcFuncSet true two font) s = .next
        (s.after (pushEvents s.cfg s.ds.backlightOn (byte &&& 0xF0#8) (s.ack 0) (s.ack 1))
          0 2 .notValid))
    ∧ (∀ (i : Instr) (byte : Byte) (s : State), s.ffReady = true → s.dsValid = true →
      s.busOpen = true → (∀ two font, i ≠ .hcFuncSet true two font) →
      encode s.cfg i = .out (.hc byte) →
      exec i s = .next
        (s.after (bytesEvents s.cfg s.ds.backlightOn s.ack 0 [.command byte]) 0 4 .notValid))

/-- R100: a controller data byte is two nibbles with RS = 1 (log 13). -/
def Obligations.DataFormatSendsTwoNibbles : Prop :=
  ∀ (c : Byte) (s : State), s.ffReady = true → s.dsValid = true → s.busOpen = true →
    exec (.hd c) s = .next
      (s.after (bytesEvents s.cfg s.ds.backlightOn s.ack 0 [.data c]) 0 4 .notValid)

/-- R90: the address byte of the format. That the format means the sending of its byte is the
model's choice (log 13), and so is all that surrounds the byte (log 15): that a repeated start goes
before it where the bus is open and a start where it is closed, that only `ffReady` is checked, that
the bus is left open, and that there is no result. -/
def Obligations.AddressByteFollowsAStart : Prop :=
  ∀ (addr : BitVec 7) (dir : Bool) (s : State), s.ffReady = true →
    exec (.ab addr dir) s = .next
      { s.after [if s.busOpen then .sr else .s, .a (addr ++ BitVec.ofBool dir) (s.ack 0)]
          0 1 .notValid with busOpen := true }

/-! ## Checks and refusals -/

/-- R188, R190: a host operation some reason is raised for is refused for the first of them in the
fixed order; it writes nothing and emits nothing but sets the ghost bit. -/
def Obligations.WrongUseIsRefusedByTheFirstReason : Prop :=
  ∀ (i : Instr) (s : State) (r : Reason), i.isHostOp = true → s.reported i = some r →
    exec i s = .next { s with refused := true, refusal := some r }

/-- R190: a host operation no reason is raised for is not refused. -/
def Obligations.LegalUseIsNotRefused : Prop :=
  ∀ (i : Instr) (s t : State), i.isHostOp = true → s.reported i = none → exec i s = .next t →
    t.refused = s.refused ∧ t.refusal = s.refusal

/-! ## The retry loop -/

/-- R112, R192: with unbounded attempts a device that does not acknowledge `n` times keeps the block
in the loop: `n` failed attempts are emitted and nothing else changes. That an attempt is a step, and
that the sequencer position counts the failed ones, is the model's grain (log 7). -/
def Obligations.UnansweredStartRepeatsForEver : Prop :=
  ∀ (n : Nat) (s : State) (address : Byte) (failed : Nat) (after : After),
    s.seq = .startWait address failed after → s.cfg.maxAttempts = none →
    (∀ i, i < n → s.ack i = .nack) →
    Sys2Proof.core.run n s = .next
      { s with
        trace := s.trace ++ failedAttempts s.cfg address n
        seq := .startWait address (failed + n) after
        env := { s.env with acksDrawn := s.env.acksDrawn + n } }

/-- R112, R140, R150: what waits in the retry loop goes on as soon as an attempt is acknowledged:
START_WAIT returns `ok = 1` and owns the bus; a bracketed operation sends its body and its stop;
LCD_INIT runs its handshake, writes the registers, sets `dsValid` and closes the bus. The loop as a
sequencer position is the model's grain (log 7). -/
def Obligations.WaitingOperationCompletesOnAcknowledge : Prop :=
  (∀ (s : State) (address : Byte) (failed : Nat),
      s.seq = .startWait address failed .hostStart → s.ack 0 = .ack →
      step s = .next
        { s.after [.s, .a address .ack] 1 1 (.status true) with busOpen := true, seq := .idle })
    ∧ (∀ (s : State) (address : Byte) (failed : Nat) (body : List CtlByte),
      s.seq = .startWait address failed (.bracket body) → s.ack 0 = .ack →
      step s = .next
        { s.after ([.s, .a address .ack] ++ bytesEvents s.cfg s.ds.backlightOn s.ack 1 body ++ [.p])
            1 (1 + 4 * body.length) s.result with busOpen := false, seq := .idle })
    ∧ (∀ (s : State) (failed : Nat) (columns rows : Byte),
      s.seq = .startWait (s.cfg.devAddr &&& ~~~ s.cfg.dirMask) failed (.handshake columns rows) →
      s.ds.backlightOn = true → s.ack 0 = .ack →
      step s = .next
        { s.after (initEvents s.cfg rows s.ack).tail 1 25 s.result with
          ds := initRegisters s.cfg columns rows
          dsValid := true
          busOpen := false
          seq := .idle })

/-- R112, R140, R150, R192: an operation with a retrying start whose device answers NACK `f` times
and then ACK emits `f` failed attempts, its opening start and all that follows it, whatever `f`
within the allowed attempts: START_WAIT, every bracketed operation, LCD_INIT. That it runs for `f`
steps after the one that accepts it is the model's grain (log 7). -/
def Obligations.OperationRetriesUntilAcknowledged : Prop :=
  ∀ (f : Nat) (s : State), s.AttemptsLeft f → (∀ j, j < f → s.ack j = .nack) → s.ack f = .ack →
    (∀ address : Byte, s.ffReady = true → s.busOpen = false →
      ∃ t, exec (.startWait address) s = .next t ∧ Sys2Proof.core.run f t = .next
        { s.after (failedAttempts s.cfg address f ++ [.s, .a address .ack])
            (f + 1) (f + 1) (.status true) with busOpen := true, seq := .idle })
    ∧ (∀ (i : Instr) (d : DisplayState) (body : List CtlByte),
      s.bracketOf i = some (d, body) → s.BracketReady →
      ∃ t, exec i s = .next t ∧ Sys2Proof.core.run f t = .next
        { s.after
            (failedAttempts s.cfg (s.cfg.devAddr &&& ~~~ s.cfg.dirMask) f
              ++ [.s, .a (s.cfg.devAddr &&& ~~~ s.cfg.dirMask) .ack]
              ++ bytesEvents s.cfg d.backlightOn s.ack (f + 1) body ++ [.p])
            (f + 1) (f + 1 + 4 * body.length) .notValid with ds := d, seq := .idle })
    ∧ (∀ columns rows : Byte, s.InitReady columns rows →
      ∃ t, exec (.lcdInit columns rows) s = .next t ∧ Sys2Proof.core.run f t = .next
        { s.after
            ([.w 40000] ++ failedAttempts s.cfg (s.cfg.devAddr &&& ~~~ s.cfg.dirMask) f
              ++ (initEvents s.cfg rows fun n => s.ack (f + n)).tail)
            (f + 1) (f + 25) .notValid with
          ds := initRegisters s.cfg columns rows
          dsValid := true
          busOpen := false
          seq := .idle })

/-- R112, R186: under a finite `MAX_ATTEMPTS` a driver operation whose last attempt is not
acknowledged stops there, its failed attempt in the trace, in a run that is faulted for good with
`DeviceUnresponsive`: in the retry loop, and at the first attempt where no more are allowed. The
position the run is faulted at, and that the fault comes one step after the last event, is the
model's own (logs 7 and 12). -/
def Obligations.DriverOperationFaultsWhenAttemptsRunOut : Prop :=
  (∀ (s : State) (address : Byte) (failed m : Nat) (after : After),
      s.seq = .startWait address failed after → after ≠ .hostStart →
      s.cfg.maxAttempts = some m → m ≤ failed + 1 → s.cfg.retryStop = true → s.ack 0 = .nack →
      step s = .next
        { s.after [.s, .a address .nack, .p] 1 1 s.result with seq := .faulted })
    ∧ (∀ (i : Instr) (d : DisplayState) (body : List CtlByte) (s : State) (m : Nat),
      s.bracketOf i = some (d, body) → s.BracketReady →
      s.cfg.maxAttempts = some m → m ≤ 1 → s.cfg.retryStop = true → s.ack 0 = .nack →
      exec i s = .next
        { s.after [.s, .a (s.cfg.devAddr &&& ~~~ s.cfg.dirMask) .nack, .p] 1 1 .notValid with
          ds := d
          seq := .faulted })
    ∧ (∀ (columns rows : Byte) (s : State) (m : Nat), s.InitReady columns rows →
      s.cfg.maxAttempts = some m → m ≤ 1 → s.cfg.retryStop = true → s.ack 0 = .nack →
      exec (.lcdInit columns rows) s = .next
        { s.after [.w 40000, .s, .a (s.cfg.devAddr &&& ~~~ s.cfg.dirMask) .nack, .p]
            1 1 .notValid with
          ds := { s.ds with backlightOn := true }
          seq := .faulted })
    ∧ (∀ s : State, s.seq = .faulted → step s = .fault .deviceUnresponsive)

/-- R112: under a finite `MAX_ATTEMPTS` a host START_WAIT whose last attempt is not acknowledged
returns `ok = 0` with the bus closed: in the retry loop, and at its first attempt where no more are
allowed. The loop as a sequencer position is the model's grain (log 7). -/
def Obligations.StartWaitGivesUpWithFailure : Prop :=
  (∀ (s : State) (address : Byte) (failed m : Nat),
      s.seq = .startWait address failed .hostStart → s.busOpen = false →
      s.cfg.maxAttempts = some m → m ≤ failed + 1 → s.cfg.retryStop = true → s.ack 0 = .nack →
      step s = .next
        { s.after [.s, .a address .nack, .p] 1 1 (.status false) with seq := .idle })
    ∧ (∀ (address : Byte) (s : State) (m : Nat), s.ffReady = true → s.busOpen = false →
      s.cfg.maxAttempts = some m → m ≤ 1 → s.cfg.retryStop = true → s.ack 0 = .nack →
      exec (.startWait address) s = .next
        { s.after [.s, .a address .nack, .p] 1 1 (.status false) with seq := .idle })

/-! ## Rules over all operations -/

/-- R183: the answers to the bytes after an operation's opening start change nothing it sends and
nothing it writes: two runs of a nibble or driver operation from states that differ in the
environment only, both acknowledged at the opening start, send the same and leave the same
registers. -/
def Obligations.AnswersAfterTheStartAreIgnored : Prop :=
  ∀ (i : Instr) (s t t' : State) (e : Env),
    (i.isRaw = true ∨ i.isBracketed = true ∨ ∃ columns rows, i = .lcdInit columns rows) →
    (i.isRaw = false → s.ack 0 = .ack ∧ ({ s with env := e } : State).ack 0 = .ack) →
    exec i s = .next t → exec i { s with env := e } = .next t' →
    t.trace.map Event.sent = t'.trace.map Event.sent ∧ t.ds = t'.ds ∧ t.dsValid = t'.dsValid
      ∧ t.busOpen = t'.busOpen ∧ t.seq = t'.seq ∧ t.result = t'.result

/-- R35: which operations write which register; every other operation leaves it. -/
def Obligations.RegistersAreWrittenByTheirOperationsOnly : Prop :=
  ∀ (i : Instr) (s t : State), exec i s = .next t →
    ((∀ c r, i ≠ .lcdInit c r) →
      t.ds.columnCount = s.ds.columnCount ∧ t.ds.lineCount = s.ds.lineCount
        ∧ t.ds.rowOffsets = s.ds.rowOffsets ∧ t.ds.functionFlags = s.ds.functionFlags
        ∧ t.dsValid = s.dsValid)
    ∧ ((∀ c r, i ≠ .lcdInit c r) → (∀ v, i ≠ .display v ∧ i ≠ .cursor v ∧ i ≠ .blink v) →
      t.ds.controlFlags = s.ds.controlFlags)
    ∧ ((∀ c r, i ≠ .lcdInit c r) → (∀ v, i ≠ .direction v ∧ i ≠ .autoshift v) →
      t.ds.entryModeFlags = s.ds.entryModeFlags)
    ∧ ((∀ c r, i ≠ .lcdInit c r) → (∀ v, i ≠ .backlight v) →
      t.ds.backlightOn = s.ds.backlightOn)
    ∧ ((∀ hz, i ≠ .ffInit hz) → t.bus = s.bus ∧ t.ffReady = s.ffReady)

/-- R22, R33, R38, R10: no step clears `ffReady`, `dsValid` or a ghost bit, takes an event out of
the trace, or changes the configuration or the answers the environment has fixed. -/
def Obligations.StepOnlyExtendsTheRecord : Prop :=
  ∀ s t : State, step s = .next t →
    (s.ffReady = true → t.ffReady = true) ∧ (s.dsValid = true → t.dsValid = true)
      ∧ (s.nackSeen = true → t.nackSeen = true) ∧ (s.refused = true → t.refused = true)
      ∧ (∃ events, t.trace = s.trace ++ events) ∧ t.cfg = s.cfg
      ∧ t.env.answers = s.env.answers ∧ t.env.bytes = s.env.bytes

/-- R98: SETCURSOR is START_WAIT, SETCURSOR_RAW and STOP in its trace and its registers. -/
def Obligations.SetCursorExpandsToItsBracket : Prop :=
  ∀ (col row : Byte) (s t t1 t2 t3 : State), s.ffReady = true → s.dsValid = true →
    s.busOpen = false → s.ack 0 = .ack →
    exec (.setCursor col row) s = .next t →
    exec (.startWait (s.cfg.devAddr &&& ~~~ s.cfg.dirMask)) s = .next t1 →
    exec (.setCursorRaw col row) t1 = .next t2 → exec .stop t2 = .next t3 →
    t = t3

/-- R101: the numbers of data bytes and waits of PRINT, for `n` characters acknowledged at the
opening start. -/
def Obligations.PrintTraceLength : Prop :=
  ∀ (text : List Byte) (s t : State), s.ffReady = true → s.dsValid = true → s.busOpen = false →
    s.ack 0 = .ack → (∀ c ∈ text, c ≠ s.cfg.terminator) → exec (.print text) s = .next t →
    ∃ events, t.trace = s.trace ++ events
      ∧ (events.filter Event.isData).length = 4 * text.length
      ∧ (events.filter Event.isWait).length = 2 * text.length
      ∧ events.length = 6 * text.length + 3

/-- R60, R38, R185: where every byte is acknowledged, the events of controller bytes sent in a display
transaction are, read by the receiver, exactly those bytes (`PUSH_LO_BL = follow`); so are the events
a bracketed operation appends, and the ghost bit stays clear. -/
def Obligations.ReceiverReadsTheBytesSent : Prop :=
  (∀ (p : Params) (backlightOn : Bool) (k : Nat → Ack) (n : Nat) (da : Byte)
      (body : List CtlByte), p.pushLoBl = .follow → (∀ j, k j = .ack) →
      pairUp (strobes (displayBytes da (some da) (bytesEvents p backlightOn k n body))) =
        body.map some)
    ∧ (∀ (i : Instr) (d : DisplayState) (body : List CtlByte) (s : State),
      s.bracketOf i = some (d, body) → s.BracketReady → s.cfg.pushLoBl = .follow →
      s.nackSeen = false → (∀ j, j < 1 + 4 * body.length → s.ack j = .ack) →
      ∃ (t : State) (events : List Event), exec i s = .next t ∧ t.trace = s.trace ++ events
        ∧ t.nackSeen = false
        ∧ pairUp (strobes (displayBytes (s.cfg.devAddr &&& ~~~ s.cfg.dirMask) none events)) =
            body.map some)

/-- R60, R140, R38, R185: where every byte is acknowledged, the receiver reads the events that
LCD_INIT appends as four single-nibble function-sets, three of 8-bit mode and one of 4-bit mode, and
then function-set, display-control, clear-display and entry-mode-set; the receiver view grows by
exactly these, whatever went out before, an odd nibble or another LCD_INIT (D30) among it. That an
LCD_INIT begins in a trace at its wait W(40000), and that the pairing starts anew after the four
strobes of each, on which the last two clauses rest, R60 leaves open: it is the model's reading (log
16, DEDUCED). -/
def Obligations.ReceiverReadsTheHandshake : Prop :=
  ∀ (columns rows : Byte) (s : State), s.InitReady columns rows → s.cfg.pushLoBl = .follow →
    s.nackSeen = false → (∀ j, j < 25 → s.ack j = .ack) →
    let da := s.cfg.devAddr &&& ~~~ s.cfg.dirMask
    let commands : List (Option CtlByte) :=
      [some (.command (s.cfg.cmdFunctionSet ||| (initRegisters s.cfg columns rows).functionFlags)),
       some (.command (s.cfg.cmdDisplayControl ||| s.cfg.displayOn)),
       some (.command s.cfg.cmdClearDisplay),
       some (.command (s.cfg.cmdEntryModeSet ||| (s.cfg.leftEntry ||| s.cfg.shiftDecrement)))]
    let single (mode : Byte) : Strobe :=
      { rs := false, rw := false, nibble := (s.cfg.cmdFunctionSet ||| mode).extractLsb' 4 4 }
    ∃ (t : State) (events : List Event), exec (.lcdInit columns rows) s = .next t
      ∧ t.trace = s.trace ++ events ∧ t.nackSeen = false
      ∧ (strobes (displayBytes da none events)).take 4 =
          [single s.cfg.mode8Bit, single s.cfg.mode8Bit, single s.cfg.mode8Bit,
            single s.cfg.mode4Bit]
      ∧ receivedIn da events = commands
      ∧ t.received = s.received.map (· ++ commands)

/-! ## Encodings -/

/-- R92, R93, R80 to R90, R100, R103: the words of every instruction decode to it, with every operand,
under every configuration whose numbers give no two commands one byte, and under the defaults. -/
def Obligations.DecodingInvertsEncoding : Prop :=
  (∀ p : Params, p.CommandsDiffer → ∀ i : Instr, decodeWord p (encode p i) = .ok i)
    ∧ ∀ i : Instr, decodeWord Config.defaults (encode Config.defaults i) = .ok i

/-- R80 to R90, R100, R103: on the output side no bit is dropped: under every configuration a byte
that decodes is the encoding of what it decodes to. -/
def Obligations.EncodingInvertsOutputDecoding : Prop :=
  ∀ (p : Params) (w : OutWord) (i : Instr), decodeOut p w = .ok i → encode p i = .out w

/-- R92, R93, R85, R88, R89: some words written out from the tables decode to what they stand for, the
controller bytes under the default numbers, which the spec marks as presumed (log 5); R103: and some
under other numbers. The byte order of a word of the table is the model's choice (log 9). -/
def Obligations.SomeWordsDecodeAsWritten : Prop :=
  decodeTableWord 8 0x06 = some .stop
    ∧ decodeTableWord 24 0x020110 = some (.lcdInit 0x01#8 0x02#8)
    ∧ decodeTableWord 16 0xFE15 = some (.cursor false)
    ∧ decodeTableWord 8 0x07 = none
    ∧ decodeOut Config.defaults (.hc 0x06#8) = .ok (.hcEntryMode true false)
    ∧ decodeOut Config.defaults (.hc 0x48#8) = .ok (.hcSetCgram 1#3)
    ∧ decodeOut Config.defaults (.hc 0xC0#8) = .ok (.hcSetDdram 0x40#7)
    ∧ decodeOut Config.defaults (.hc 0x02#8) = .error (.unbuiltCommand 0x02#8)
    ∧ decodeOut { Config.defaults with cmdEntryModeSet := 0x10#8 } (.hc 0x12#8) =
      .ok (.hcEntryMode true false)
    ∧ decodeOut { Config.defaults with cmdEntryModeSet := 0x10#8 } (.hc 0x06#8) =
      .error (.unbuiltCommand 0x06#8)

/-! ## Invariants -/

/-- The reset state meets the invariant and the grammar. -/
def Obligations.ResetMeetsTheInvariants : Prop :=
  State.reset.Inv ∧ State.reset.BusGrammar

/-- R25 to R33, R29 to R31, R38: every step keeps the invariant. -/
def Obligations.StepKeepsTheRegistersLegal : Prop :=
  ∀ s t : State, s.Inv → step s = .next t → t.Inv

/-- R118, R23: every step keeps the trace within the grammar of the bus, its leading FF_INIT included,
with `ffReady` and `busOpen` saying where the trace stands, for configurations that stop between
attempts. -/
def Obligations.StepKeepsTheBusGrammar : Prop :=
  ∀ s t : State, s.cfg.retryStop = true → s.Inv → s.BusGrammar → step s = .next t → t.BusGrammar

/-! ## Encodings under any numbers -/

/-- R83 to R89, R103: under every configuration whose numbers meet the source's constraints and whose
flags are bits, a command byte that an operation builds from legal registers decodes, to an
instruction with that encoding: those of the bracketed operations, of SETCURSOR_RAW (SETCURSOR's) and
of LCD_INIT. -/
def Obligations.BuiltCommandsAreDecoded : Prop :=
  (∀ (s : State) (i : Instr) (d : DisplayState) (body : List CtlByte) (c : Byte),
      s.cfg.numbersAdmitted = true → s.cfg.FlagsAreBits → s.ds.Legal s.cfg →
      s.bracketOf i = some (d, body) → .command c ∈ body →
      ∃ j, decodeOut s.cfg (.hc c) = .ok j ∧ encode s.cfg j = .out (.hc c))
    ∧ (∀ (p : Params) (columns rows c : Byte),
      p.numbersAdmitted = true → p.FlagsAreBits →
      c ∈ [p.cmdFunctionSet ||| p.mode8Bit, p.cmdFunctionSet ||| p.mode4Bit,
        p.cmdFunctionSet ||| (initRegisters p columns rows).functionFlags,
        p.cmdDisplayControl ||| (initRegisters p columns rows).controlFlags, p.cmdClearDisplay,
        p.cmdEntryModeSet ||| (initRegisters p columns rows).entryModeFlags] →
      ∃ j, decodeOut p (.hc c) = .ok j ∧ encode p j = .out (.hc c))
end

