-- ==== Sys2Proof/Laws/Decode.lean ====
section
/-! SUPPORT. What the decoder of the controller commands can do, under any numbers (R83 to R89,
R103): the flags a byte carries give a field back, so a byte that some command has is decoded. -/

namespace Sys2Proof

/-- Setting the bits a byte carries changes nothing. -/
theorem or_of_carries {v mask : Byte} (h : carries v mask = true) : v ||| mask = v := by
  rw [carries, beq_iff_eq] at h
  rw [← h]
  ext i hi
  simp +contextual

theorem carries_or (b mask : Byte) : carries (b ||| mask) mask = true := by
  rw [carries, beq_iff_eq]
  ext i hi
  simp
  exact fun h => .inr h

/-- A flag that stands in a byte may be read off that byte. -/
theorem flag_carries {v b mask : Byte} {on : Bool} (h : b ||| flag mask on = v) :
    b ||| flag mask (carries v mask) = v := by
  cases on with
  | false =>
    obtain rfl : b = v := by simpa [flag] using h
    cases hc : carries b mask with
    | false => simp [flag]
    | true => simpa [flag] using or_of_carries hc
  | true =>
    have h' : b ||| mask = v := h
    have hc : carries v mask = true := h' ▸ carries_or b mask
    rw [hc]
    exact h

/-- The flags of an entry-mode byte. -/
theorem entryField_carries {p : Params} {v b : Byte} {left shift : Bool}
    (h : b ||| entryField p left shift = v) :
    b ||| entryField p (carries v p.leftEntry) (carries v p.shiftIncrement) = v := by
  simp only [entryField, ← BitVec.or_assoc] at h ⊢
  have h1 := flag_carries h
  rw [BitVec.or_assoc, BitVec.or_comm (flag p.leftEntry left), ← BitVec.or_assoc] at h1
  have h2 := flag_carries h1
  rwa [BitVec.or_assoc, BitVec.or_comm (flag p.shiftIncrement _), ← BitVec.or_assoc] at h2

/-- The flags of a display-control byte. -/
theorem controlField_carries {p : Params} {v b : Byte} {disp curs blnk : Bool}
    (h : b ||| controlField p disp curs blnk = v) :
    b ||| controlField p (carries v p.displayOn) (carries v p.cursorOn) (carries v p.blinkOn) = v := by
  simp only [controlField, ← BitVec.or_assoc] at h ⊢
  have h1 := flag_carries h
  rw [BitVec.or_assoc, BitVec.or_comm (flag p.cursorOn curs), ← BitVec.or_assoc] at h1
  have h2 := flag_carries h1
  rw [BitVec.or_assoc, BitVec.or_assoc, BitVec.or_comm (flag p.displayOn disp),
    ← BitVec.or_assoc] at h2
  have h3 := flag_carries h2
  refine Eq.trans ?_ h3
  ac_rfl

/-- The flags of a function-set byte, the mode given. -/
theorem functionField_carries {p : Params} {v b : Byte} {eight two font : Bool}
    (h : b ||| functionField p eight two font = v) :
    b ||| functionField p eight (carries v p.twoLine) (carries v (fontFlag p)) = v := by
  simp only [functionField, ← BitVec.or_assoc] at h ⊢
  have h1 := flag_carries h
  rw [BitVec.or_assoc, BitVec.or_comm (flag p.twoLine two), ← BitVec.or_assoc] at h1
  have h2 := flag_carries h1
  rwa [BitVec.or_assoc, BitVec.or_comm (flag (fontFlag p) _), ← BitVec.or_assoc] at h2

/-- A glyph slot and a DDRAM address may be read off a byte with their command, the latter where the
command leaves its seven bits alone. -/
theorem slot_carries {v b : Byte} {slot : BitVec 3} (h : b ||| slot.setWidth 8 <<< 3 = v) :
    b ||| (v.extractLsb' 3 3).setWidth 8 <<< 3 = v := by
  subst h
  ext i hi
  obtain rfl | rfl | rfl | rfl | rfl | rfl | rfl | rfl :
    i = 0 ∨ i = 1 ∨ i = 2 ∨ i = 3 ∨ i = 4 ∨ i = 5 ∨ i = 6 ∨ i = 7 := by omega
  all_goals simp

theorem addr_carries {v b a : Byte} (h : b ||| a = v) (h7 : v.getLsbD 7 = b.getLsbD 7) :
    b ||| (v.extractLsb' 0 7).setWidth 8 = v := by
  subst h
  ext i hi
  obtain rfl | rfl | rfl | rfl | rfl | rfl | rfl | rfl :
    i = 0 ∨ i = 1 ∨ i = 2 ∨ i = 3 ∨ i = 4 ∨ i = 5 ∨ i = 6 ∨ i = 7 := by omega
  all_goals simp_all

/-- A byte that does not decode is of none of the six kinds. -/
theorem decodeHc_error {p : Params} {v : Byte} {e : DecodeError} (h : decodeHc p v = .error e) :
    v ≠ p.cmdClearDisplay
      ∧ v ≠ p.cmdEntryModeSet ||| entryField p (carries v p.leftEntry) (carries v p.shiftIncrement)
      ∧ v ≠ p.cmdDisplayControl
          ||| controlField p (carries v p.displayOn) (carries v p.cursorOn) (carries v p.blinkOn)
      ∧ (∀ eight, v ≠ p.cmdFunctionSet
          ||| functionField p eight (carries v p.twoLine) (carries v (fontFlag p)))
      ∧ v ≠ p.cmdSetCgramAddr ||| (v.extractLsb' 3 3).setWidth 8 <<< 3
      ∧ v ≠ p.cmdSetDdramAddr ||| (v.extractLsb' 0 7).setWidth 8 := by
  simp only [decodeHc] at h
  repeat (split at h; · cases h)
  simp only [beq_iff_eq] at *
  exact ⟨‹_›, ‹_›, ‹_›, fun eight => by cases eight <;> assumption, ‹_›, ‹_›⟩

/-- A byte that is the encoding of some instruction decodes. -/
theorem decodeHc_of_encode {p : Params} {i : Instr} {v : Byte} (h : encode p i = .out (.hc v)) :
    ∃ j, decodeHc p v = .ok j := by
  cases hd : decodeHc p v with
  | ok j => exact ⟨j, rfl⟩
  | error e =>
    obtain ⟨h1, h2, h3, h4, h5, h6⟩ := decodeHc_error hd
    exfalso
    cases i <;> simp only [encode, CodeWord.out.injEq, OutWord.hc.injEq, reduceCtorEq] at h
    case hcClear => exact h1 h.symm
    case hcEntryMode => exact h2 (entryField_carries h).symm
    case hcDispCtrl => exact h3 (controlField_carries h).symm
    case hcFuncSet eight _ _ => exact h4 eight (functionField_carries h).symm
    case hcSetCgram => exact h5 (slot_carries h).symm
    case hcSetDdram => exact h6 (addr_carries h (by simp [← h])).symm

end Sys2Proof
end

