-- ==== Sys2Proof/Laws/State.lean ====
section
/-! SUPPORT. What each update of a state does to each field, true by definition. With these no proof
unfolds a record update. -/

namespace Sys2Proof.Machine

variable (s : State)

@[simp] theorem State.setBus_cfg (b : BusHandle) : (s.setBus b).cfg = s.cfg := rfl
@[simp] theorem State.setBus_bus (b : BusHandle) : (s.setBus b).bus = b := rfl
@[simp] theorem State.setBus_ffReady (b : BusHandle) : (s.setBus b).ffReady = s.ffReady := rfl
@[simp] theorem State.setBus_busOpen (b : BusHandle) : (s.setBus b).busOpen = s.busOpen := rfl
@[simp] theorem State.setBus_ds (b : BusHandle) : (s.setBus b).ds = s.ds := rfl
@[simp] theorem State.setBus_dsValid (b : BusHandle) : (s.setBus b).dsValid = s.dsValid := rfl
@[simp] theorem State.setBus_seq (b : BusHandle) : (s.setBus b).seq = s.seq := rfl
@[simp] theorem State.setBus_port (b : BusHandle) : (s.setBus b).port = s.port := rfl
@[simp] theorem State.setBus_result (b : BusHandle) : (s.setBus b).result = s.result := rfl
@[simp] theorem State.setBus_trace (b : BusHandle) : (s.setBus b).trace = s.trace := rfl
@[simp] theorem State.setBus_nackSeen (b : BusHandle) : (s.setBus b).nackSeen = s.nackSeen := rfl
@[simp] theorem State.setBus_refused (b : BusHandle) : (s.setBus b).refused = s.refused := rfl
@[simp] theorem State.setBus_refusal (b : BusHandle) : (s.setBus b).refusal = s.refusal := rfl
@[simp] theorem State.setBus_env (b : BusHandle) : (s.setBus b).env = s.env := rfl

@[simp] theorem State.setFfReady_cfg (v : Bool) : (s.setFfReady v).cfg = s.cfg := rfl
@[simp] theorem State.setFfReady_bus (v : Bool) : (s.setFfReady v).bus = s.bus := rfl
@[simp] theorem State.setFfReady_ffReady (v : Bool) : (s.setFfReady v).ffReady = v := rfl
@[simp] theorem State.setFfReady_busOpen (v : Bool) : (s.setFfReady v).busOpen = s.busOpen := rfl
@[simp] theorem State.setFfReady_ds (v : Bool) : (s.setFfReady v).ds = s.ds := rfl
@[simp] theorem State.setFfReady_dsValid (v : Bool) : (s.setFfReady v).dsValid = s.dsValid := rfl
@[simp] theorem State.setFfReady_seq (v : Bool) : (s.setFfReady v).seq = s.seq := rfl
@[simp] theorem State.setFfReady_port (v : Bool) : (s.setFfReady v).port = s.port := rfl
@[simp] theorem State.setFfReady_result (v : Bool) : (s.setFfReady v).result = s.result := rfl
@[simp] theorem State.setFfReady_trace (v : Bool) : (s.setFfReady v).trace = s.trace := rfl
@[simp] theorem State.setFfReady_nackSeen (v : Bool) : (s.setFfReady v).nackSeen = s.nackSeen := rfl
@[simp] theorem State.setFfReady_refused (v : Bool) : (s.setFfReady v).refused = s.refused := rfl
@[simp] theorem State.setFfReady_refusal (v : Bool) : (s.setFfReady v).refusal = s.refusal := rfl
@[simp] theorem State.setFfReady_env (v : Bool) : (s.setFfReady v).env = s.env := rfl

@[simp] theorem State.setBusOpen_cfg (v : Bool) : (s.setBusOpen v).cfg = s.cfg := rfl
@[simp] theorem State.setBusOpen_bus (v : Bool) : (s.setBusOpen v).bus = s.bus := rfl
@[simp] theorem State.setBusOpen_ffReady (v : Bool) : (s.setBusOpen v).ffReady = s.ffReady := rfl
@[simp] theorem State.setBusOpen_busOpen (v : Bool) : (s.setBusOpen v).busOpen = v := rfl
@[simp] theorem State.setBusOpen_ds (v : Bool) : (s.setBusOpen v).ds = s.ds := rfl
@[simp] theorem State.setBusOpen_dsValid (v : Bool) : (s.setBusOpen v).dsValid = s.dsValid := rfl
@[simp] theorem State.setBusOpen_seq (v : Bool) : (s.setBusOpen v).seq = s.seq := rfl
@[simp] theorem State.setBusOpen_port (v : Bool) : (s.setBusOpen v).port = s.port := rfl
@[simp] theorem State.setBusOpen_result (v : Bool) : (s.setBusOpen v).result = s.result := rfl
@[simp] theorem State.setBusOpen_trace (v : Bool) : (s.setBusOpen v).trace = s.trace := rfl
@[simp] theorem State.setBusOpen_nackSeen (v : Bool) : (s.setBusOpen v).nackSeen = s.nackSeen := rfl
@[simp] theorem State.setBusOpen_refused (v : Bool) : (s.setBusOpen v).refused = s.refused := rfl
@[simp] theorem State.setBusOpen_refusal (v : Bool) : (s.setBusOpen v).refusal = s.refusal := rfl
@[simp] theorem State.setBusOpen_env (v : Bool) : (s.setBusOpen v).env = s.env := rfl

@[simp] theorem State.setDs_cfg (d : DisplayState) : (s.setDs d).cfg = s.cfg := rfl
@[simp] theorem State.setDs_bus (d : DisplayState) : (s.setDs d).bus = s.bus := rfl
@[simp] theorem State.setDs_ffReady (d : DisplayState) : (s.setDs d).ffReady = s.ffReady := rfl
@[simp] theorem State.setDs_busOpen (d : DisplayState) : (s.setDs d).busOpen = s.busOpen := rfl
@[simp] theorem State.setDs_ds (d : DisplayState) : (s.setDs d).ds = d := rfl
@[simp] theorem State.setDs_dsValid (d : DisplayState) : (s.setDs d).dsValid = s.dsValid := rfl
@[simp] theorem State.setDs_seq (d : DisplayState) : (s.setDs d).seq = s.seq := rfl
@[simp] theorem State.setDs_port (d : DisplayState) : (s.setDs d).port = s.port := rfl
@[simp] theorem State.setDs_result (d : DisplayState) : (s.setDs d).result = s.result := rfl
@[simp] theorem State.setDs_trace (d : DisplayState) : (s.setDs d).trace = s.trace := rfl
@[simp] theorem State.setDs_nackSeen (d : DisplayState) : (s.setDs d).nackSeen = s.nackSeen := rfl
@[simp] theorem State.setDs_refused (d : DisplayState) : (s.setDs d).refused = s.refused := rfl
@[simp] theorem State.setDs_refusal (d : DisplayState) : (s.setDs d).refusal = s.refusal := rfl
@[simp] theorem State.setDs_env (d : DisplayState) : (s.setDs d).env = s.env := rfl

@[simp] theorem State.setDsValid_cfg (v : Bool) : (s.setDsValid v).cfg = s.cfg := rfl
@[simp] theorem State.setDsValid_bus (v : Bool) : (s.setDsValid v).bus = s.bus := rfl
@[simp] theorem State.setDsValid_ffReady (v : Bool) : (s.setDsValid v).ffReady = s.ffReady := rfl
@[simp] theorem State.setDsValid_busOpen (v : Bool) : (s.setDsValid v).busOpen = s.busOpen := rfl
@[simp] theorem State.setDsValid_ds (v : Bool) : (s.setDsValid v).ds = s.ds := rfl
@[simp] theorem State.setDsValid_dsValid (v : Bool) : (s.setDsValid v).dsValid = v := rfl
@[simp] theorem State.setDsValid_seq (v : Bool) : (s.setDsValid v).seq = s.seq := rfl
@[simp] theorem State.setDsValid_port (v : Bool) : (s.setDsValid v).port = s.port := rfl
@[simp] theorem State.setDsValid_result (v : Bool) : (s.setDsValid v).result = s.result := rfl
@[simp] theorem State.setDsValid_trace (v : Bool) : (s.setDsValid v).trace = s.trace := rfl
@[simp] theorem State.setDsValid_nackSeen (v : Bool) : (s.setDsValid v).nackSeen = s.nackSeen := rfl
@[simp] theorem State.setDsValid_refused (v : Bool) : (s.setDsValid v).refused = s.refused := rfl
@[simp] theorem State.setDsValid_refusal (v : Bool) : (s.setDsValid v).refusal = s.refusal := rfl
@[simp] theorem State.setDsValid_env (v : Bool) : (s.setDsValid v).env = s.env := rfl

@[simp] theorem State.setSeq_cfg (q : Seq) : (s.setSeq q).cfg = s.cfg := rfl
@[simp] theorem State.setSeq_bus (q : Seq) : (s.setSeq q).bus = s.bus := rfl
@[simp] theorem State.setSeq_ffReady (q : Seq) : (s.setSeq q).ffReady = s.ffReady := rfl
@[simp] theorem State.setSeq_busOpen (q : Seq) : (s.setSeq q).busOpen = s.busOpen := rfl
@[simp] theorem State.setSeq_ds (q : Seq) : (s.setSeq q).ds = s.ds := rfl
@[simp] theorem State.setSeq_dsValid (q : Seq) : (s.setSeq q).dsValid = s.dsValid := rfl
@[simp] theorem State.setSeq_seq (q : Seq) : (s.setSeq q).seq = q := rfl
@[simp] theorem State.setSeq_port (q : Seq) : (s.setSeq q).port = s.port := rfl
@[simp] theorem State.setSeq_result (q : Seq) : (s.setSeq q).result = s.result := rfl
@[simp] theorem State.setSeq_trace (q : Seq) : (s.setSeq q).trace = s.trace := rfl
@[simp] theorem State.setSeq_nackSeen (q : Seq) : (s.setSeq q).nackSeen = s.nackSeen := rfl
@[simp] theorem State.setSeq_refused (q : Seq) : (s.setSeq q).refused = s.refused := rfl
@[simp] theorem State.setSeq_refusal (q : Seq) : (s.setSeq q).refusal = s.refusal := rfl
@[simp] theorem State.setSeq_env (q : Seq) : (s.setSeq q).env = s.env := rfl

@[simp] theorem State.setPort_cfg (l : List PortRecord) : (s.setPort l).cfg = s.cfg := rfl
@[simp] theorem State.setPort_bus (l : List PortRecord) : (s.setPort l).bus = s.bus := rfl
@[simp] theorem State.setPort_ffReady (l : List PortRecord) : (s.setPort l).ffReady = s.ffReady := rfl
@[simp] theorem State.setPort_busOpen (l : List PortRecord) : (s.setPort l).busOpen = s.busOpen := rfl
@[simp] theorem State.setPort_ds (l : List PortRecord) : (s.setPort l).ds = s.ds := rfl
@[simp] theorem State.setPort_dsValid (l : List PortRecord) : (s.setPort l).dsValid = s.dsValid := rfl
@[simp] theorem State.setPort_seq (l : List PortRecord) : (s.setPort l).seq = s.seq := rfl
@[simp] theorem State.setPort_port (l : List PortRecord) : (s.setPort l).port = l := rfl
@[simp] theorem State.setPort_result (l : List PortRecord) : (s.setPort l).result = s.result := rfl
@[simp] theorem State.setPort_trace (l : List PortRecord) : (s.setPort l).trace = s.trace := rfl
@[simp] theorem State.setPort_nackSeen (l : List PortRecord) : (s.setPort l).nackSeen = s.nackSeen := rfl
@[simp] theorem State.setPort_refused (l : List PortRecord) : (s.setPort l).refused = s.refused := rfl
@[simp] theorem State.setPort_refusal (l : List PortRecord) : (s.setPort l).refusal = s.refusal := rfl
@[simp] theorem State.setPort_env (l : List PortRecord) : (s.setPort l).env = s.env := rfl

@[simp] theorem State.setResult_cfg (r : Result) : (s.setResult r).cfg = s.cfg := rfl
@[simp] theorem State.setResult_bus (r : Result) : (s.setResult r).bus = s.bus := rfl
@[simp] theorem State.setResult_ffReady (r : Result) : (s.setResult r).ffReady = s.ffReady := rfl
@[simp] theorem State.setResult_busOpen (r : Result) : (s.setResult r).busOpen = s.busOpen := rfl
@[simp] theorem State.setResult_ds (r : Result) : (s.setResult r).ds = s.ds := rfl
@[simp] theorem State.setResult_dsValid (r : Result) : (s.setResult r).dsValid = s.dsValid := rfl
@[simp] theorem State.setResult_seq (r : Result) : (s.setResult r).seq = s.seq := rfl
@[simp] theorem State.setResult_port (r : Result) : (s.setResult r).port = s.port := rfl
@[simp] theorem State.setResult_result (r : Result) : (s.setResult r).result = r := rfl
@[simp] theorem State.setResult_trace (r : Result) : (s.setResult r).trace = s.trace := rfl
@[simp] theorem State.setResult_nackSeen (r : Result) : (s.setResult r).nackSeen = s.nackSeen := rfl
@[simp] theorem State.setResult_refused (r : Result) : (s.setResult r).refused = s.refused := rfl
@[simp] theorem State.setResult_refusal (r : Result) : (s.setResult r).refusal = s.refusal := rfl
@[simp] theorem State.setResult_env (r : Result) : (s.setResult r).env = s.env := rfl

@[simp] theorem State.emits_cfg (es : List Event) : (s.emits es).cfg = s.cfg := rfl
@[simp] theorem State.emits_bus (es : List Event) : (s.emits es).bus = s.bus := rfl
@[simp] theorem State.emits_ffReady (es : List Event) : (s.emits es).ffReady = s.ffReady := rfl
@[simp] theorem State.emits_busOpen (es : List Event) : (s.emits es).busOpen = s.busOpen := rfl
@[simp] theorem State.emits_ds (es : List Event) : (s.emits es).ds = s.ds := rfl
@[simp] theorem State.emits_dsValid (es : List Event) : (s.emits es).dsValid = s.dsValid := rfl
@[simp] theorem State.emits_seq (es : List Event) : (s.emits es).seq = s.seq := rfl
@[simp] theorem State.emits_port (es : List Event) : (s.emits es).port = s.port := rfl
@[simp] theorem State.emits_result (es : List Event) : (s.emits es).result = s.result := rfl
@[simp] theorem State.emits_trace (es : List Event) : (s.emits es).trace = s.trace ++ es := rfl
@[simp] theorem State.emits_nackSeen (es : List Event) : (s.emits es).nackSeen = s.nackSeen := rfl
@[simp] theorem State.emits_refused (es : List Event) : (s.emits es).refused = s.refused := rfl
@[simp] theorem State.emits_refusal (es : List Event) : (s.emits es).refusal = s.refusal := rfl
@[simp] theorem State.emits_env (es : List Event) : (s.emits es).env = s.env := rfl

@[simp] theorem State.noteAnswer_cfg (k : Ack) : (s.noteAnswer k).cfg = s.cfg := rfl
@[simp] theorem State.noteAnswer_bus (k : Ack) : (s.noteAnswer k).bus = s.bus := rfl
@[simp] theorem State.noteAnswer_ffReady (k : Ack) : (s.noteAnswer k).ffReady = s.ffReady := rfl
@[simp] theorem State.noteAnswer_busOpen (k : Ack) : (s.noteAnswer k).busOpen = s.busOpen := rfl
@[simp] theorem State.noteAnswer_ds (k : Ack) : (s.noteAnswer k).ds = s.ds := rfl
@[simp] theorem State.noteAnswer_dsValid (k : Ack) : (s.noteAnswer k).dsValid = s.dsValid := rfl
@[simp] theorem State.noteAnswer_seq (k : Ack) : (s.noteAnswer k).seq = s.seq := rfl
@[simp] theorem State.noteAnswer_port (k : Ack) : (s.noteAnswer k).port = s.port := rfl
@[simp] theorem State.noteAnswer_result (k : Ack) : (s.noteAnswer k).result = s.result := rfl
@[simp] theorem State.noteAnswer_trace (k : Ack) : (s.noteAnswer k).trace = s.trace := rfl
@[simp] theorem State.noteAnswer_nackSeen (k : Ack) : (s.noteAnswer k).nackSeen = (s.nackSeen || k == .nack) := rfl
@[simp] theorem State.noteAnswer_refused (k : Ack) : (s.noteAnswer k).refused = s.refused := rfl
@[simp] theorem State.noteAnswer_refusal (k : Ack) : (s.noteAnswer k).refusal = s.refusal := rfl
@[simp] theorem State.noteAnswer_env (k : Ack) : (s.noteAnswer k).env = s.env := rfl

@[simp] theorem State.drawAcks_cfg (n : Nat) : (s.drawAcks n).cfg = s.cfg := rfl
@[simp] theorem State.drawAcks_bus (n : Nat) : (s.drawAcks n).bus = s.bus := rfl
@[simp] theorem State.drawAcks_ffReady (n : Nat) : (s.drawAcks n).ffReady = s.ffReady := rfl
@[simp] theorem State.drawAcks_busOpen (n : Nat) : (s.drawAcks n).busOpen = s.busOpen := rfl
@[simp] theorem State.drawAcks_ds (n : Nat) : (s.drawAcks n).ds = s.ds := rfl
@[simp] theorem State.drawAcks_dsValid (n : Nat) : (s.drawAcks n).dsValid = s.dsValid := rfl
@[simp] theorem State.drawAcks_seq (n : Nat) : (s.drawAcks n).seq = s.seq := rfl
@[simp] theorem State.drawAcks_port (n : Nat) : (s.drawAcks n).port = s.port := rfl
@[simp] theorem State.drawAcks_result (n : Nat) : (s.drawAcks n).result = s.result := rfl
@[simp] theorem State.drawAcks_trace (n : Nat) : (s.drawAcks n).trace = s.trace := rfl
@[simp] theorem State.drawAcks_nackSeen (n : Nat) : (s.drawAcks n).nackSeen = s.nackSeen := rfl
@[simp] theorem State.drawAcks_refused (n : Nat) : (s.drawAcks n).refused = s.refused := rfl
@[simp] theorem State.drawAcks_refusal (n : Nat) : (s.drawAcks n).refusal = s.refusal := rfl
@[simp] theorem State.drawAcks_env (n : Nat) : (s.drawAcks n).env = { s.env with acksDrawn := s.env.acksDrawn + n } := rfl

@[simp] theorem State.drawByte_cfg : (s.drawByte).cfg = s.cfg := rfl
@[simp] theorem State.drawByte_bus : (s.drawByte).bus = s.bus := rfl
@[simp] theorem State.drawByte_ffReady : (s.drawByte).ffReady = s.ffReady := rfl
@[simp] theorem State.drawByte_busOpen : (s.drawByte).busOpen = s.busOpen := rfl
@[simp] theorem State.drawByte_ds : (s.drawByte).ds = s.ds := rfl
@[simp] theorem State.drawByte_dsValid : (s.drawByte).dsValid = s.dsValid := rfl
@[simp] theorem State.drawByte_seq : (s.drawByte).seq = s.seq := rfl
@[simp] theorem State.drawByte_port : (s.drawByte).port = s.port := rfl
@[simp] theorem State.drawByte_result : (s.drawByte).result = s.result := rfl
@[simp] theorem State.drawByte_trace : (s.drawByte).trace = s.trace := rfl
@[simp] theorem State.drawByte_nackSeen : (s.drawByte).nackSeen = s.nackSeen := rfl
@[simp] theorem State.drawByte_refused : (s.drawByte).refused = s.refused := rfl
@[simp] theorem State.drawByte_refusal : (s.drawByte).refusal = s.refusal := rfl
@[simp] theorem State.drawByte_env : (s.drawByte).env = { s.env with bytesDrawn := s.env.bytesDrawn + 1 } := rfl

@[simp] theorem State.refuse_cfg (r : Reason) : (s.refuse r).cfg = s.cfg := rfl
@[simp] theorem State.refuse_bus (r : Reason) : (s.refuse r).bus = s.bus := rfl
@[simp] theorem State.refuse_ffReady (r : Reason) : (s.refuse r).ffReady = s.ffReady := rfl
@[simp] theorem State.refuse_busOpen (r : Reason) : (s.refuse r).busOpen = s.busOpen := rfl
@[simp] theorem State.refuse_ds (r : Reason) : (s.refuse r).ds = s.ds := rfl
@[simp] theorem State.refuse_dsValid (r : Reason) : (s.refuse r).dsValid = s.dsValid := rfl
@[simp] theorem State.refuse_seq (r : Reason) : (s.refuse r).seq = s.seq := rfl
@[simp] theorem State.refuse_port (r : Reason) : (s.refuse r).port = s.port := rfl
@[simp] theorem State.refuse_result (r : Reason) : (s.refuse r).result = s.result := rfl
@[simp] theorem State.refuse_trace (r : Reason) : (s.refuse r).trace = s.trace := rfl
@[simp] theorem State.refuse_nackSeen (r : Reason) : (s.refuse r).nackSeen = s.nackSeen := rfl
@[simp] theorem State.refuse_refused (r : Reason) : (s.refuse r).refused = true := rfl
@[simp] theorem State.refuse_refusal (r : Reason) : (s.refuse r).refusal = some r := rfl
@[simp] theorem State.refuse_env (r : Reason) : (s.refuse r).env = s.env := rfl

/-! ## The environment's answers under the updates -/

@[simp] theorem State.setBus_ack (b : BusHandle) (m : Nat) : (s.setBus b).ack m = s.ack m := rfl
@[simp] theorem State.setFfReady_ack (v : Bool) (m : Nat) : (s.setFfReady v).ack m = s.ack m := rfl
@[simp] theorem State.setBusOpen_ack (v : Bool) (m : Nat) : (s.setBusOpen v).ack m = s.ack m := rfl
@[simp] theorem State.setDs_ack (d : DisplayState) (m : Nat) : (s.setDs d).ack m = s.ack m := rfl
@[simp] theorem State.setDsValid_ack (v : Bool) (m : Nat) : (s.setDsValid v).ack m = s.ack m := rfl
@[simp] theorem State.setSeq_ack (q : Seq) (m : Nat) : (s.setSeq q).ack m = s.ack m := rfl
@[simp] theorem State.setPort_ack (l : List PortRecord) (m : Nat) : (s.setPort l).ack m = s.ack m := rfl
@[simp] theorem State.setResult_ack (r : Result) (m : Nat) : (s.setResult r).ack m = s.ack m := rfl
@[simp] theorem State.emits_ack (es : List Event) (m : Nat) : (s.emits es).ack m = s.ack m := rfl
@[simp] theorem State.noteAnswer_ack (k : Ack) (m : Nat) : (s.noteAnswer k).ack m = s.ack m := rfl
@[simp] theorem State.drawAcks_ack (n m : Nat) : (s.drawAcks n).ack m = s.ack (n + m) := by
  simp [State.ack, Env.ackAt, Nat.add_assoc]
@[simp] theorem State.drawByte_ack (m : Nat) : (s.drawByte).ack m = s.ack m := rfl
@[simp] theorem State.refuse_ack (r : Reason) (m : Nat) : (s.refuse r).ack m = s.ack m := rfl

@[simp] theorem State.wait_eq (n : Nat) : s.wait n = s.emits [.w n] := rfl
@[simp] theorem State.accept_eq : s.accept = s.setResult .notValid := rfl

/-- Two emissions are one. -/
theorem State.emits_emits (es fs : List Event) : (s.emits es).emits fs = s.emits (es ++ fs) := by
  simp [State.emits, List.append_assoc]

end Sys2Proof.Machine
end

