-- ==== Sys2Proof/Laws/Ops.lean ====
section
/-! SUPPORT. One lemma per shared operation saying all it can do: in closed form for the operations
that only send, by cases for the checks and the retrying start. -/

namespace Sys2Proof.Machine

/-! ## Checks -/

/-- An operation behind its checks either runs or is refused for the first check that fails. -/
theorem guarded_cases (checks : List Check) (s : State) (run : State → Answer) :
    (firstFailing checks = none ∧ guarded checks s run = run (s.setResult .notValid))
      ∨ ∃ r, firstFailing checks = some r ∧ guarded checks s run = .next (s.refuse r) := by
  unfold guarded
  cases firstFailing checks with
  | none => exact .inl ⟨rfl, rfl⟩
  | some r => exact .inr ⟨r, rfl, rfl⟩

theorem guarded_of_pass {checks : List Check} {s : State} {run : State → Answer}
    (h : firstFailing checks = none) : guarded checks s run = run (s.setResult .notValid) := by
  simp [guarded, h]

theorem guarded_of_fail {checks : List Check} {s : State} {run : State → Answer} {r : Reason}
    (h : firstFailing checks = some r) : guarded checks s run = .next (s.refuse r) := by
  simp [guarded, h]

@[simp] theorem firstFailing_nil : firstFailing [] = none := rfl
@[simp] theorem firstFailing_true (r : Reason) (rest : List Check) :
    firstFailing ((true, r) :: rest) = firstFailing rest := rfl
@[simp] theorem firstFailing_false (r : Reason) (rest : List Check) :
    firstFailing ((false, r) :: rest) = some r := rfl

/-- The checks pass exactly if each holds. -/
theorem firstFailing_eq_none (checks : List Check) :
    firstFailing checks = none ↔ ∀ c ∈ checks, c.1 = true := by
  induction checks with
  | nil => simp
  | cons c rest ih => obtain ⟨_ | _, r⟩ := c <;> simp [ih]

/-! ## Closed form of sending -/

/-- Emit events while `n` answers are drawn and noted: the effect of every operation that only
sends. -/
def State.sent (n : Nat) (events : List Event) (s : State) : State :=
  { s with
    trace := s.trace ++ events
    nackSeen := s.nackSeen || s.nackAmong 0 n
    env := { s.env with acksDrawn := s.env.acksDrawn + n } }

variable (s : State) (n m : Nat) (es fs : List Event)

@[simp] theorem State.sent_cfg : (s.sent n es).cfg = s.cfg := rfl
@[simp] theorem State.sent_bus : (s.sent n es).bus = s.bus := rfl
@[simp] theorem State.sent_ffReady : (s.sent n es).ffReady = s.ffReady := rfl
@[simp] theorem State.sent_busOpen : (s.sent n es).busOpen = s.busOpen := rfl
@[simp] theorem State.sent_ds : (s.sent n es).ds = s.ds := rfl
@[simp] theorem State.sent_dsValid : (s.sent n es).dsValid = s.dsValid := rfl
@[simp] theorem State.sent_seq : (s.sent n es).seq = s.seq := rfl
@[simp] theorem State.sent_port : (s.sent n es).port = s.port := rfl
@[simp] theorem State.sent_result : (s.sent n es).result = s.result := rfl
@[simp] theorem State.sent_trace : (s.sent n es).trace = s.trace ++ es := rfl
@[simp] theorem State.sent_nackSeen :
    (s.sent n es).nackSeen = (s.nackSeen || s.nackAmong 0 n) := rfl
@[simp] theorem State.sent_refused : (s.sent n es).refused = s.refused := rfl
@[simp] theorem State.sent_refusal : (s.sent n es).refusal = s.refusal := rfl
@[simp] theorem State.sent_env :
    (s.sent n es).env = { s.env with acksDrawn := s.env.acksDrawn + n } := rfl
@[simp] theorem State.sent_ack : (s.sent n es).ack m = s.ack (n + m) :=
  State.drawAcks_ack s n m

theorem State.nackAmong_zero (i : Nat) : s.nackAmong i 0 = false := by
  simp [State.nackAmong]

theorem State.nackAmong_succ (i : Nat) :
    s.nackAmong i (n + 1) = (s.nackAmong i n || s.ack (i + n) == .nack) := by
  simp [State.nackAmong, List.range_succ]

theorem State.nackAmong_add (i : Nat) :
    s.nackAmong i (n + m) = (s.nackAmong i n || s.nackAmong (i + n) m) := by
  induction m with
  | zero => simp [State.nackAmong_zero]
  | succ m ih => rw [← Nat.add_assoc, nackAmong_succ, ih, nackAmong_succ, Bool.or_assoc, Nat.add_assoc]

theorem State.nackAmong_congr {s t : State} (i j : Nat) (h : ∀ m, s.ack (i + m) = t.ack (j + m)) :
    s.nackAmong i n = t.nackAmong j n := by
  simp [State.nackAmong, h]

/-- Sending twice is sending once. -/
theorem State.sent_sent : (s.sent n es).sent m fs = s.sent (n + m) (es ++ fs) := by
  have h : (s.sent n es).nackAmong 0 m = s.nackAmong n m :=
    State.nackAmong_congr m 0 n fun k => by simp
  unfold State.sent at h ⊢
  simp [h, State.nackAmong_add, Bool.or_assoc, Nat.add_assoc]

/-- Emitting without a draw. -/
theorem State.emits_eq_sent : s.emits es = s.sent 0 es := by
  simp [State.emits, State.sent, State.nackAmong]

theorem busWrite_eq (b : Byte) : busWrite b s = s.sent 1 [.d b (s.ack 0)] := by
  simp [busWrite, State.sent, State.emits, State.noteAnswer, State.drawAcks, State.nackAmong]

/-- A push sends its three events and writes nothing. -/
theorem push_eq (x : Byte) :
    push x s = s.sent 2 (pushEvents s.cfg s.ds.backlightOn x (s.ack 0) (s.ack 1)) := by
  simp only [push, busWrite_eq, State.wait_eq, State.emits_eq_sent, State.sent_sent]
  cases h : s.cfg.pushLoBl <;>
    simp [pushEvents, pushHigh, pushLow, keptLines, blLine, Config.tSettle, h]

theorem cmd8_eq (c : Byte) :
    cmd8 c s = s.sent 2 (pushEvents s.cfg s.ds.backlightOn (c &&& 0xF0#8) (s.ack 0) (s.ack 1)) :=
  push_eq s _

/-- A controller byte sends two pushes and writes nothing. -/
theorem sendByte_eq (b : CtlByte) :
    sendByte b s = s.sent 4 (bytesEvents s.cfg s.ds.backlightOn s.ack 0 [b]) := by
  cases b <;>
    simp [sendByte, cmd4, writeData, push_eq, State.sent_sent, bytesEvents, pushOperands, hiNibble,
      loNibble, withRs]

theorem cmd4_eq (c : Byte) :
    cmd4 c s = s.sent 4 (bytesEvents s.cfg s.ds.backlightOn s.ack 0 [.command c]) :=
  sendByte_eq s (.command c)

theorem writeData_eq (c : Byte) :
    writeData c s = s.sent 4 (bytesEvents s.cfg s.ds.backlightOn s.ack 0 [.data c]) :=
  sendByte_eq s (.data c)

/-- The events of controller bytes depend on the answers only from the first one on. -/
theorem bytesEvents_shift (p : Params) (bl : Bool) (k : Nat → Ack) (i j : Nat) (body : List CtlByte) :
    bytesEvents p bl (fun n => k (i + n)) j body = bytesEvents p bl k (i + j) body := by
  induction body generalizing j with
  | nil => rfl
  | cons b rest ih => simp [bytesEvents, ih, Nat.add_assoc]

theorem bytesEvents_append (p : Params) (bl : Bool) (k : Nat → Ack) (i : Nat)
    (as bs : List CtlByte) :
    bytesEvents p bl k i (as ++ bs) =
      bytesEvents p bl k i as ++ bytesEvents p bl k (i + 4 * as.length) bs := by
  induction as generalizing i with
  | nil => simp [bytesEvents]
  | cons a rest ih =>
    have h : i + 4 + 4 * rest.length = i + 4 * (rest.length + 1) := by omega
    simp [bytesEvents, ih, h]

/-- Controller bytes in order send four bus bytes each and write nothing. -/
theorem sendAll_eq (body : List CtlByte) :
    sendAll body s =
      s.sent (4 * body.length) (bytesEvents s.cfg s.ds.backlightOn s.ack 0 body) := by
  induction body generalizing s with
  | nil => simp [sendAll, bytesEvents, State.sent, State.nackAmong]
  | cons b rest ih =>
    have k : (s.sent 4 (bytesEvents s.cfg s.ds.backlightOn s.ack 0 [b])).ack = fun n => s.ack (4 + n) :=
      funext fun n => by simp
    have h : 4 + 4 * rest.length = 4 * (rest.length + 1) := by omega
    rw [sendAll, ih, sendByte_eq, State.sent_sent, k, State.sent_cfg, State.sent_ds,
      bytesEvents_shift, h]
    simp [bytesEvents]

/-! ## Sending and writing commute -/

theorem State.sent_setDs (d : DisplayState) : (s.setDs d).sent n es = (s.sent n es).setDs d := rfl
theorem State.setDs_setDs (d d' : DisplayState) : (s.setDs d).setDs d' = s.setDs d' := rfl
theorem State.sent_setResult (r : Result) :
    (s.setResult r).sent n es = (s.sent n es).setResult r := rfl
theorem State.sent_setPort (l : List PortRecord) :
    (s.setPort l).sent n es = (s.sent n es).setPort l := rfl
theorem State.sent_setSeq (q : Seq) : (s.setSeq q).sent n es = (s.sent n es).setSeq q := rfl
theorem State.sent_setBusOpen (v : Bool) :
    (s.setBusOpen v).sent n es = (s.sent n es).setBusOpen v := rfl

theorem busStop_eq : busStop s = (s.sent 0 [.p]).setBusOpen false := by
  rw [busStop, State.emits_eq_sent]

/-! ## The handshake -/

/-- The events of steps 3 to 11, `k` the answers to the data bytes (R140). -/
def handshakeEvents (p : Params) (bl : Bool) (rows : Byte) (k : Nat → Ack) : List Event :=
  let eight := (p.cmdFunctionSet ||| p.mode8Bit) &&& 0xF0#8
  let four := (p.cmdFunctionSet ||| p.mode4Bit) &&& 0xF0#8
  pushEvents p bl eight (k 0) (k 1) ++ [.w 4500]
    ++ pushEvents p bl eight (k 2) (k 3) ++ [.w 150]
    ++ pushEvents p bl eight (k 4) (k 5)
    ++ pushEvents p bl four (k 6) (k 7)
    ++ bytesEvents p bl k 8
      [.command (p.cmdFunctionSet ||| (initRegisters p 0#8 rows).functionFlags),
       .command (p.cmdDisplayControl ||| p.displayOn),
       .command p.cmdClearDisplay,
       .command (p.cmdEntryModeSet ||| (p.leftEntry ||| p.shiftDecrement))]
    ++ [.p]

theorem functionFlagsOf_eq (p : Params) (columns rows : Byte) :
    functionFlagsOf p rows = (initRegisters p columns rows).functionFlags := by
  simp [functionFlagsOf, initRegisters, BitVec.lt_def]

theorem handshakeResets_eq :
    handshakeResets s =
      s.sent 8 (pushEvents s.cfg s.ds.backlightOn
          ((s.cfg.cmdFunctionSet ||| s.cfg.mode8Bit) &&& 0xF0#8) (s.ack 0) (s.ack 1) ++ [.w 4500]
        ++ pushEvents s.cfg s.ds.backlightOn
          ((s.cfg.cmdFunctionSet ||| s.cfg.mode8Bit) &&& 0xF0#8) (s.ack 2) (s.ack 3) ++ [.w 150]
        ++ pushEvents s.cfg s.ds.backlightOn
          ((s.cfg.cmdFunctionSet ||| s.cfg.mode8Bit) &&& 0xF0#8) (s.ack 4) (s.ack 5)
        ++ pushEvents s.cfg s.ds.backlightOn
          ((s.cfg.cmdFunctionSet ||| s.cfg.mode4Bit) &&& 0xF0#8) (s.ack 6) (s.ack 7)) := by
  simp [handshakeResets, cmd8_eq, State.emits_eq_sent, State.sent_sent, functionSetCommand,
    Config.tReset1, Config.tReset2]

/-- Steps 7 to 10 send four commands; steps 5, 6, 8 and 10 write the registers. -/
theorem handshakeCommands_eq (columns rows : Byte) :
    initEntryMode (sendClear (initDisplayControl (sendFunctionSet (storeGeometry columns rows s)))) =
      (s.sent 16 (bytesEvents s.cfg s.ds.backlightOn s.ack 0
        [.command (s.cfg.cmdFunctionSet ||| (initRegisters s.cfg 0#8 rows).functionFlags),
         .command (s.cfg.cmdDisplayControl ||| s.cfg.displayOn),
         .command s.cfg.cmdClearDisplay,
         .command (s.cfg.cmdEntryModeSet ||| (s.cfg.leftEntry ||| s.cfg.shiftDecrement))])).setDs
        { initRegisters s.cfg columns rows with backlightOn := s.ds.backlightOn } := by
  simp only [initEntryMode, sendClear, initDisplayControl, sendFunctionSet, storeGeometry, cmd4_eq,
    State.sent_setDs, State.setDs_setDs, State.sent_sent]
  simp [bytesEvents, functionFlagsOf_eq s.cfg 0#8, functionSetCommand, displayControlCommand,
    entryModeCommand, controlFlagsAtInit, entryModeFlagsAtInit, rowOffsetsOf, Config.row1Base]
  rfl

/-- The handshake after its opening start: twelve pushes, six registers, the bus closed, `dsValid`
set. -/
theorem handshake_eq (columns rows : Byte) :
    handshake columns rows s =
      ((((s.sent 24 (handshakeEvents s.cfg s.ds.backlightOn rows s.ack)).setDs
        { initRegisters s.cfg columns rows with backlightOn := s.ds.backlightOn }).setBusOpen
          false).setDsValid true) := by
  rw [handshake, handshakeCommands_eq, handshakeResets_eq, busStop_eq]
  simp only [State.sent_setDs, State.sent_sent, State.sent_cfg, State.sent_ds]
  simp [handshakeEvents, bytesEvents, initRegisters]

/-! ## What follows an acknowledged start -/

theorem opened_bracket_eq (body : List CtlByte) :
    opened (.bracket body) s =
      (s.sent (4 * body.length)
        (bytesEvents s.cfg s.ds.backlightOn s.ack 0 body ++ [.p])).setBusOpen false := by
  simp [opened, sendAll_eq, busStop_eq, State.sent_sent]

/-! ## The retrying start -/

@[simp] theorem abandoned_hostStart :
    abandoned .hostStart s = (s.setSeq .idle).setResult (.status false) := rfl
@[simp] theorem abandoned_bracket (body : List CtlByte) :
    abandoned (.bracket body) s = s.setSeq .faulted := rfl
@[simp] theorem abandoned_handshake (columns rows : Byte) :
    abandoned (.handshake columns rows) s = s.setSeq .faulted := rfl

/-- Giving up moves the sequencer and the result only. -/
theorem abandoned_cases (after : After) :
    (after = .hostStart ∧ abandoned after s = (s.setSeq .idle).setResult (.status false))
      ∨ (after ≠ .hostStart ∧ abandoned after s = s.setSeq .faulted) := by
  cases after <;> simp

theorem retryStop_eq : retryStop s = s.emits (retryEvents s.cfg) := by
  cases h : s.cfg.retryStop <;> simp [retryStop, retryEvents, h, State.emits]

/-- An acknowledged attempt opens the bus, ends the wait, and all that follows happens. -/
theorem attempt_of_ack (address : Byte) (failed : Nat) (after : After) (h : s.ack 0 = .ack) :
    attempt address failed after s =
      .next (opened after
        ((((s.drawAcks 1).emits [.s, .a address .ack]).setSeq .idle).setBusOpen true)) := by
  simp [attempt, h]

/-- An attempt that is not acknowledged is counted, and the loop goes on or gives up. -/
theorem attempt_of_nack (address : Byte) (failed : Nat) (after : After) (h : s.ack 0 = .nack) :
    attempt address failed after s =
      notAcknowledged address (failed + 1) after
        ((s.drawAcks 1).emits [.s, .a address .nack]) := by
  simp [attempt, h]

/-- An attempt that is not acknowledged, with attempts left, waits in the loop, one failed attempt
more. -/
theorem attempt_of_nack_left (address : Byte) (failed : Nat) (after : After) (h : s.ack 0 = .nack)
    (hx : exhausted s.cfg (failed + 1) = false) :
    attempt address failed after s =
      .next (((s.drawAcks 1).emits ([.s, .a address .nack] ++ retryEvents s.cfg)).setSeq
        (.startWait address (failed + 1) after)) := by
  rw [attempt_of_nack s _ _ _ h, notAcknowledged, retryStop_eq]
  simp [hx, State.emits_emits]

/-- The last attempt that is allowed, not acknowledged: the failed attempt is in the trace and the
operation is given up. -/
theorem attempt_of_nack_last (address : Byte) (failed : Nat) (after : After) (h : s.ack 0 = .nack)
    (hx : exhausted s.cfg (failed + 1) = true) (hr : s.cfg.retryStop = true) :
    attempt address failed after s =
      .next (abandoned after ((s.drawAcks 1).emits [.s, .a address .nack, .p])) := by
  rw [attempt_of_nack s _ _ _ h, notAcknowledged, retryStop_eq]
  simp [hx, hr, giveUp, retryEvents, State.emits_emits]

/-- Attempts are left as the statements say it. -/
theorem exhausted_of_left (f : Nat) (h : s.AttemptsLeft f) : exhausted s.cfg f = false := by
  unfold exhausted
  split
  · rfl
  · next m hm => simpa using h m hm

theorem exhausted_of_le {p : Params} {f : Nat} (hm : p.maxAttempts = some m) (h : m ≤ f) :
    exhausted p f = true := by
  simp [exhausted, hm, h]

/-- What an attempt that answers a next state can have done. -/
theorem attempt_cases {address : Byte} {failed : Nat} {after : After} {s t : State}
    (h : attempt address failed after s = .next t) :
    (s.ack 0 = .ack ∧ t = opened after
        ((((s.drawAcks 1).emits [.s, .a address .ack]).setSeq .idle).setBusOpen true))
    ∨ (s.ack 0 = .nack ∧ exhausted s.cfg (failed + 1) = false ∧
        t = (retryStop ((s.drawAcks 1).emits [.s, .a address .nack])).setSeq
          (.startWait address (failed + 1) after))
    ∨ (s.ack 0 = .nack ∧ exhausted s.cfg (failed + 1) = true ∧ s.cfg.retryStop = true ∧
        t = abandoned after ((s.drawAcks 1).emits [.s, .a address .nack, .p])) := by
  cases hk : s.ack 0 with
  | ack =>
    rw [attempt_of_ack s _ _ _ hk] at h
    exact .inl ⟨rfl, by cases h; rfl⟩
  | nack =>
    rw [attempt_of_nack s _ _ _ hk, notAcknowledged] at h
    right
    split at h
    · next hx =>
      right
      unfold giveUp at h
      split at h
      · next hr =>
        have hr' : s.cfg.retryStop = true := by
          revert hr; simp only [retryStop]; split <;> simp
        refine ⟨rfl, by simpa using hx, hr', ?_⟩
        injection h with h
        simp [← h, retryStop_eq, retryEvents, hr', State.emits_eq_sent, State.sent_sent]
      · cases h
    · next hx => exact .inl ⟨rfl, by simpa using hx, by cases h; rfl⟩

/-! ## The state after an operation that only sends, as the statements write it -/

@[simp] theorem State.after_cfg (r : Result) : (s.after es n m r).cfg = s.cfg := rfl
@[simp] theorem State.after_bus (r : Result) : (s.after es n m r).bus = s.bus := rfl
@[simp] theorem State.after_ffReady (r : Result) : (s.after es n m r).ffReady = s.ffReady := rfl
@[simp] theorem State.after_busOpen (r : Result) : (s.after es n m r).busOpen = s.busOpen := rfl
@[simp] theorem State.after_ds (r : Result) : (s.after es n m r).ds = s.ds := rfl
@[simp] theorem State.after_dsValid (r : Result) : (s.after es n m r).dsValid = s.dsValid := rfl
@[simp] theorem State.after_seq (r : Result) : (s.after es n m r).seq = s.seq := rfl
@[simp] theorem State.after_port (r : Result) : (s.after es n m r).port = s.port := rfl
@[simp] theorem State.after_refused (r : Result) : (s.after es n m r).refused = s.refused := rfl
@[simp] theorem State.after_refusal (r : Result) : (s.after es n m r).refusal = s.refusal := rfl
@[simp] theorem State.after_result (r : Result) : (s.after es n m r).result = r := rfl
@[simp] theorem State.after_trace (r : Result) : (s.after es n m r).trace = s.trace ++ es := rfl
@[simp] theorem State.after_nackSeen (r : Result) :
    (s.after es n m r).nackSeen = (s.nackSeen || s.nackAmong n (m - n)) := rfl
@[simp] theorem State.after_env (r : Result) :
    (s.after es n m r).env = { s.env with acksDrawn := s.env.acksDrawn + m } := rfl
@[simp] theorem State.after_ack (r : Result) (j : Nat) : (s.after es n m r).ack j = s.ack (m + j) :=
  State.drawAcks_ack s m j

/-- Accepting and sending is what the statements call `after`. -/
theorem State.sent_accepted (r : Result) : (s.setResult r).sent n es = s.after es 0 n r := rfl

/-! ## Operations behind passing checks -/

theorem raw_of_pass {s : State} (body : State → State) (h1 : s.ffReady = true)
    (h2 : s.dsValid = true) (h3 : s.busOpen = true) :
    raw s body = .next (body (s.setResult .notValid)) := by
  simp [raw, guarded, rawChecks, readyCheck, openCheck, initCheck, h1, h2, h3]

theorem guarded_bracket_of_pass {s : State} (run : State → Answer) (h1 : s.ffReady = true)
    (h2 : s.dsValid = true) (h3 : s.busOpen = false) :
    guarded (bracketChecks s) s run = run (s.setResult .notValid) := by
  simp [guarded, bracketChecks, readyCheck, closedCheck, initCheck, h1, h2, h3]

/-- A bracket whose opening start is acknowledged at once, after a write of the display registers:
the whole of it happens. -/
theorem openDisplay_bracket_of_ack {s : State} (body : List CtlByte) (d : DisplayState)
    (hb : s.busOpen = false) (h : s.ack 0 = .ack) :
    openDisplay (.bracket body) ((s.setResult .notValid).setDs d) = .next
      { s.after (bracketEvents s.cfg d.backlightOn s.ack body) 1 (1 + 4 * body.length) .notValid with
        ds := d, seq := .idle } := by
  rw [openDisplay, attempt_of_ack _ _ _ _ (by simpa using h)]
  refine congrArg Host.Outcome.next ?_
  rw [opened_bracket_eq]
  have hk : (State.setBusOpen true (State.setSeq Seq.idle (State.emits
      [Event.s, Event.a (deviceAddress ((s.setResult .notValid).setDs d).cfg) Ack.ack]
      (State.drawAcks 1 ((s.setResult .notValid).setDs d))))).ack = fun n => s.ack (1 + n) :=
    funext fun n => by simp
  rw [hk]
  apply State.ext <;> simp [hb, bracketEvents, deviceAddress, Nat.add_assoc, bytesEvents_shift]
  exact congrArg _ (State.nackAmong_congr _ 0 1 fun m => by simp)

/-- LCD_INIT's opening start acknowledged at once. -/
theorem openDisplay_handshake_of_ack {s : State} (columns rows : Byte) (h : s.ack 0 = .ack) :
    openDisplay (.handshake columns rows) s = .next
      { s.after ([.s, .a (deviceAddress s.cfg) .ack]
          ++ handshakeEvents s.cfg s.ds.backlightOn rows fun n => s.ack (1 + n))
          1 25 s.result with
        ds := { initRegisters s.cfg columns rows with backlightOn := s.ds.backlightOn }
        dsValid := true
        busOpen := false
        seq := .idle } := by
  rw [openDisplay, attempt_of_ack _ _ _ _ h]
  refine congrArg Host.Outcome.next ?_
  simp only [opened]
  rw [handshake_eq]
  have hk : (State.setBusOpen true (State.setSeq Seq.idle (State.emits
      [Event.s, Event.a (deviceAddress s.cfg) Ack.ack] (State.drawAcks 1 s)))).ack =
      fun n => s.ack (1 + n) := funext fun n => by simp
  rw [hk]
  apply State.ext <;> simp
  exact congrArg _ (State.nackAmong_congr _ 0 1 fun m => by simp)

/-! ## Operand forms -/

theorem toggleBit_eq (reg bit : Byte) (v : Bool) :
    toggleBit reg bit v = (reg &&& ~~~ bit) ||| if v then bit else 0x00#8 := by
  cases v <;> simp [toggleBit]

theorem clamp_toNat (v limit : Byte) :
    (clamp v limit).toNat = min (max v.toNat 1) limit.toNat := by
  simp only [clamp, BitVec.lt_def]
  split <;> split <;> simp_all <;> omega

/-- A cursor address in the words of R152, wherever there is a row offset to read. -/
theorem cursorAddress_eq (d : DisplayState) (col row : Byte) (r : Fin 4)
    (hc : 1 ≤ d.columnCount.toNat)
    (hr : r.val + 1 = min (max row.toNat 1) d.lineCount.toNat) :
    cursorAddress d col row =
      .ok (BitVec.ofNat 8 (min (max col.toNat 1) d.columnCount.toNat - 1) + d.rowOffsets[r]) := by
  have kc := clamp_toNat col d.columnCount
  have kr := clamp_toNat row d.lineCount
  have h1 : (clamp row d.lineCount - 1#8).toNat = r.val := by
    rw [BitVec.toNat_sub]
    simp
    omega
  have h2 : clamp col d.columnCount - 1#8 =
      BitVec.ofNat 8 (min (max col.toNat 1) d.columnCount.toNat - 1) := by
    apply BitVec.eq_of_toNat_eq
    rw [BitVec.toNat_sub]
    simp
    omega
  unfold cursorAddress
  simp only [h1, h2]
  simp

/-- PRINT's bytes, with and without a terminator in the list (R94). -/
theorem printed_eq (terminator : Byte) (text rest : List Byte) (h : ∀ c ∈ text, c ≠ terminator) :
    printed terminator text = text ∧ printed terminator (text ++ terminator :: rest) = text := by
  induction text with
  | nil => simp [printed]
  | cons a l ih =>
    obtain ⟨h1, h2⟩ := ih fun c hc => h c (by simp [hc])
    have ha : (a != terminator) = true := by simpa using h a (by simp)
    simp only [printed, List.cons_append, List.takeWhile_cons, ha, if_true] at h1 h2 ⊢
    rw [h1, h2]
    exact ⟨rfl, rfl⟩

/-! ## The receiver view -/

/-- Events that begin with an LCD_INIT are cut apart from all that stands before them. -/
theorem splitAtInits_append (es fs : List Event) (h : (splitAtInits fs).1 = []) :
    splitAtInits (es ++ fs) =
      ((splitAtInits es).1, (splitAtInits es).2 ++ (splitAtInits fs).2) := by
  induction es with
  | nil => exact Prod.ext h rfl
  | cons e rest ih => simp only [List.cons_append, splitAtInits, ih]; split <;> simp

/-- Events in which no LCD_INIT begins are one piece. -/
theorem splitAtInits_of_none (es : List Event) (h : ∀ e ∈ es, beginsInit e = false) :
    splitAtInits es = (es, []) := by
  induction es with
  | nil => rfl
  | cons e rest ih => simp [splitAtInits, ih fun x hx => h x (by simp [hx]), h e (by simp)]

/-- The receiver view grows by what an LCD_INIT and the events after it deliver. -/
theorem receivedIn_append (da : Byte) (es fs : List Event) (h : (splitAtInits fs).1 = []) :
    receivedIn da (es ++ fs) = receivedIn da es ++ receivedIn da fs := by
  simp [receivedIn, splitAtInits_append es fs h]

/-! ## The grammar of the bus -/

@[simp] theorem Phase.unconfigured_cfg (hz : Hz) :
    Phase.unconfigured.next (.cfg hz) = some .closed := rfl
@[simp] theorem Phase.closed_cfg (hz : Hz) : Phase.closed.next (.cfg hz) = some .closed := rfl
@[simp] theorem Phase.closed_s : Phase.closed.next .s = some .addressing := rfl
@[simp] theorem Phase.closed_w (n : Nat) : Phase.closed.next (.w n) = some .closed := rfl
@[simp] theorem Phase.addressing_a (b : Byte) (k : Ack) :
    Phase.addressing.next (.a b k) = some .opened := rfl
@[simp] theorem Phase.opened_sr : Phase.opened.next .sr = some .addressing := rfl
@[simp] theorem Phase.opened_d (b : Byte) (k : Ack) : Phase.opened.next (.d b k) = some .opened := rfl
@[simp] theorem Phase.opened_r (b : Byte) (k : Ack) : Phase.opened.next (.r b k) = some .opened := rfl
@[simp] theorem Phase.opened_w (n : Nat) : Phase.opened.next (.w n) = some .opened := rfl
@[simp] theorem Phase.opened_p : Phase.opened.next .p = some .closed := rfl

@[simp] theorem Phase.run_nil (ph : Phase) : ph.run [] = some ph := rfl
@[simp] theorem Phase.run_cons (ph : Phase) (e : Event) (rest : List Event) :
    ph.run (e :: rest) = (ph.next e).bind fun q => q.run rest := by
  rw [Phase.run]; cases ph.next e <;> rfl

@[simp] theorem Phase.run_append (ph : Phase) (es fs : List Event) :
    ph.run (es ++ fs) = (ph.run es).bind fun q => q.run fs := by
  induction es generalizing ph with
  | nil => rfl
  | cons e rest ih => cases h : ph.next e <;> simp [h, ih]

/-- Sending keeps the bus open. -/
@[simp] theorem Phase.run_pushEvents (p : Params) (bl : Bool) (x : Byte) (k1 k2 : Ack) :
    Phase.opened.run (pushEvents p bl x k1 k2) = some .opened := by
  simp [pushEvents]

@[simp] theorem Phase.run_bytesEvents (p : Params) (bl : Bool) (k : Nat → Ack) (i : Nat)
    (body : List CtlByte) : Phase.opened.run (bytesEvents p bl k i body) = some .opened := by
  induction body generalizing i with
  | nil => rfl
  | cons b rest ih => simp [bytesEvents, ih]

/-- The handshake ends the transaction. -/
@[simp] theorem Phase.run_handshakeEvents (p : Params) (bl : Bool) (rows : Byte) (k : Nat → Ack) :
    Phase.opened.run (handshakeEvents p bl rows k) = some .closed := by
  simp [handshakeEvents]

end Sys2Proof.Machine
end

