-- ==== Sys2Proof/Laws/Exec.lean ====
section
/-! SUPPORT. Every instruction is its checks and then its body, and what a body can do: proofs about
`exec` case on this and not on the instruction's definition. -/

namespace Sys2Proof.Machine

/-- The checks of an instruction, in the order they are made. -/
def checksOf (s : State) : Instr → List Check
  | .ffInit _ => [closedCheck s]
  | .start _ | .startWait _ => startChecks s
  | .repStart _ | .writeByte _ | .readByte _ | .stop | .xb _ _ _ _ _ => openChecks s
  | .push _ | .cmd4 _ | .cmd8 _ | .write _ | .setCursorRaw _ _
  | .hcClear | .hcEntryMode _ _ | .hcDispCtrl _ _ _ | .hcFuncSet _ _ _
  | .hcSetCgram _ | .hcSetDdram _ | .hd _ => rawChecks s
  | .lcdInit columns rows => [readyCheck s, closedCheck s, (geometryOk columns rows, .badGeometry)]
  | .clear | .setCursor _ _
  | .display _ | .cursor _ | .blink _ | .direction _ | .autoshift _ | .backlight _
  | .print _ | .printChar _ => bracketChecks s
  | .createChar _ bitmap => bracketChecks s ++ [(bitmapOk bitmap, .badOperand)]
  | .ab _ _ => [readyCheck s]

/-- An instruction one of whose checks fails is refused for the first that does. -/
theorem exec_of_fail {i : Instr} {s : State} {r : Reason}
    (h : firstFailing (checksOf s i) = some r) : exec i s = .next (s.refuse r) := by
  cases i <;>
    simp only [exec, execFfInit, execStart, execStartWait, execRepStart, execWriteByte, execReadByte,
      execStop, execPush, execCmd4, execCmd8, execWrite, raw, execLcdInit, execClear, bracketed,
      execSetCursor, execSetCursorRaw, execDisplay, execCursor, execBlink, toggleControl,
      execDirection, execAutoshift, toggleEntryMode, execBacklight, execPrint, execPrintChar,
      execCreateChar, execXb, execHcClear, execHcEntryMode, execHcDispCtrl, execHcFuncSet,
      execHcSetCgram, execHcSetDdram, execHd, execAb] <;>
    exact guarded_of_fail h

/-! ## What passing checks say -/

theorem startChecks_pass (s : State) :
    firstFailing (startChecks s) = none ↔ s.ffReady = true ∧ s.busOpen = false := by
  simp [firstFailing_eq_none, startChecks, readyCheck, closedCheck]

theorem openChecks_pass (s : State) :
    firstFailing (openChecks s) = none ↔ s.ffReady = true ∧ s.busOpen = true := by
  simp [firstFailing_eq_none, openChecks, readyCheck, openCheck]

theorem rawChecks_pass (s : State) :
    firstFailing (rawChecks s) = none ↔
      s.ffReady = true ∧ s.dsValid = true ∧ s.busOpen = true := by
  simp [firstFailing_eq_none, rawChecks, readyCheck, initCheck, openCheck]

theorem bracketChecks_pass (s : State) :
    firstFailing (bracketChecks s) = none ↔
      s.ffReady = true ∧ s.dsValid = true ∧ s.busOpen = false := by
  simp [firstFailing_eq_none, bracketChecks, readyCheck, initCheck, closedCheck]

theorem createCharChecks_pass (s : State) (bitmap : List Byte) :
    firstFailing (bracketChecks s ++ [(bitmapOk bitmap, .badOperand)]) = none ↔
      (s.ffReady = true ∧ s.dsValid = true ∧ s.busOpen = false) ∧ bitmapOk bitmap = true := by
  simp [firstFailing_eq_none, bracketChecks, readyCheck, initCheck, closedCheck, and_assoc]

theorem lcdInitChecks_pass (s : State) (columns rows : Byte) :
    firstFailing [readyCheck s, closedCheck s, (geometryOk columns rows, .badGeometry)] = none ↔
      s.ffReady = true ∧ s.busOpen = false ∧ geometryOk columns rows = true := by
  simp [firstFailing_eq_none, readyCheck, closedCheck]

/-! ## What the statements call a bracketed operation -/

/-- A cursor placement that `bracketOf` knows has an address, and its command. -/
theorem bracketOf_setCursor {s : State} {col row : Byte} {d : DisplayState} {body : List CtlByte}
    (h : s.bracketOf (.setCursor col row) = some (d, body)) :
    d = s.ds ∧ ∃ address, cursorAddress s.ds col row = .ok address
      ∧ body = [.command (s.cfg.cmdSetDdramAddr ||| address)] := by
  simp only [State.bracketOf] at h
  split at h
  · next c r hc hr =>
    split at h
    · next offset ho =>
      cases h
      obtain ⟨h4, ho⟩ := List.getElem?_eq_some_iff.1 ho
      refine ⟨rfl, _, ?_, rfl⟩
      rw [cursorAddress_eq s.ds col row ⟨r, by simpa using h4⟩ (by omega) (by simpa using hr.symm),
        hc]
      simp [← ho]
    · cases h
  · cases h

/-- A bracketed operation whose checks pass writes its register and opens its transaction. -/
theorem exec_of_bracketOf {s : State} {i : Instr} {d : DisplayState} {body : List CtlByte}
    (h : s.bracketOf i = some (d, body)) (hr : s.BracketReady) :
    exec i s = openDisplay (.bracket body) ((s.setResult .notValid).setDs d) := by
  have hp := (bracketChecks_pass s).2 hr
  cases i with
  | setCursor col row =>
    obtain ⟨rfl, address, ha, rfl⟩ := bracketOf_setCursor h
    simp only [exec, execSetCursor]
    rw [guarded_of_pass hp]
    simp [ha, setDdramCommand]
    rfl
  | createChar location bitmap =>
    simp only [State.bracketOf] at h
    split at h
    · next hl =>
      cases h
      simp only [exec, execCreateChar]
      rw [guarded_of_pass ((createCharChecks_pass s bitmap).2 ⟨hr, hl⟩)]
      rfl
    · cases h
  | clear | print | printChar =>
    cases h
    simp only [exec, execClear, execPrint, execPrintChar, bracketed]
    rw [guarded_of_pass hp]
    rfl
  | backlight =>
    cases h
    simp only [exec, execBacklight]
    rw [guarded_of_pass hp]
    rfl
  | display | cursor | blink =>
    cases h
    simp only [exec, execDisplay, execCursor, execBlink, toggleControl]
    rw [guarded_of_pass hp]
    simp only [toggleBit_eq]
    rfl
  | direction | autoshift =>
    cases h
    simp only [exec, execDirection, execAutoshift, toggleEntryMode]
    rw [guarded_of_pass hp]
    simp only [toggleBit_eq]
    rfl
  | _ => cases h

/-- LCD_INIT whose checks pass switches the backlight on, waits, and opens its transaction. -/
theorem exec_lcdInit_of_ready {s : State} {columns rows : Byte} (h : s.InitReady columns rows) :
    exec (.lcdInit columns rows) s = openDisplay (.handshake columns rows)
      (((s.setResult .notValid).setDs { s.ds with backlightOn := true }).emits
        [.w Config.tPower]) := by
  obtain ⟨hr, hb, h1, h2, h3⟩ := h
  simp only [exec, execLcdInit]
  rw [guarded_of_pass ((lcdInitChecks_pass s columns rows).2 ⟨hr, hb, by
    simp [geometryOk, Config.maxRows, BitVec.le_def, h1, h2, h3]⟩)]
  rfl

/-- What an instruction did that answered a next state with all its checks passed, from the state
`u` it was accepted in. -/
inductive Did (i : Instr) (u t : State) : Prop where
  /-- It configured the bus. -/
  | configured (clockHz : Hz) (hi : i = .ffInit clockHz) (ht : t = busConfigure clockHz u)
  /-- It started a transaction. -/
  | started (address : Byte) (r : Result) (hi : (∃ a, i = .start a) ∨ ∃ a d, i = .ab a d)
      (hb : u.busOpen = false) (ht : t = (busStart address u).setResult r)
  /-- It started again inside one. -/
  | restarted (address : Byte) (r : Result) (hb : u.busOpen = true)
      (ht : t = (busRepStart address u).setResult r)
  /-- It read a byte. -/
  | hasRead (ack : Bool) (r : Result) (hb : u.busOpen = true)
      (ht : t = (busRead ack u).setResult r)
  /-- It stopped. -/
  | stopped (hi : i = .stop) (hb : u.busOpen = true) (ht : t = busStop u)
  /-- It sent one data byte. -/
  | wrote (b : Byte) (r : Result) (hb : u.busOpen = true) (ht : t = (busWrite b u).setResult r)
  /-- It made one push. -/
  | pushed (x : Byte) (hb : u.busOpen = true) (ht : t = push x u)
  /-- It sent controller bytes in the open transaction. -/
  | sent (body : List CtlByte) (hb : u.busOpen = true) (ht : t = sendAll body u)
  /-- It is START_WAIT. -/
  | waited (address : Byte) (hi : i = .startWait address) (hr : u.ffReady = true)
      (hb : u.busOpen = false) (ht : attempt address 0 .hostStart u = .next t)
  /-- It is LCD_INIT. -/
  | initialised (columns rows : Byte) (hi : i = .lcdInit columns rows)
      (hg : geometryOk columns rows = true) (hr : u.ffReady = true) (hb : u.busOpen = false)
      (ht : attempt (deviceAddress u.cfg) 0 (.handshake columns rows)
        ((u.setDs { u.ds with backlightOn := true }).wait Config.tPower) = .next t)
  /-- It is bracketed, and may have written the register it owns before its start. -/
  | bracketed (body : List CtlByte) (d : DisplayState) (hi : i.isBracketed = true)
      (hr : u.ffReady = true) (hv : u.dsValid = true) (hb : u.busOpen = false)
      (hd : d = u.ds
        ∨ (∃ v, i = .backlight v ∧ d = { u.ds with backlightOn := v })
        ∨ (∃ bit v, (bit = u.cfg.displayOn ∧ i = .display v ∨ bit = u.cfg.cursorOn ∧ i = .cursor v
              ∨ bit = u.cfg.blinkOn ∧ i = .blink v)
            ∧ d = { u.ds with controlFlags := toggleBit u.ds.controlFlags bit v })
        ∨ (∃ bit v, (bit = u.cfg.leftEntry ∧ i = .direction v
              ∨ bit = u.cfg.shiftIncrement ∧ i = .autoshift v)
            ∧ d = { u.ds with entryModeFlags := toggleBit u.ds.entryModeFlags bit v }))
      (ht : attempt (deviceAddress u.cfg) 0 (.bracket body) (u.setDs d) = .next t)

/-- Everything an instruction that answers a next state can have done: it was refused, or its checks
passed and it did one of the things above. -/
theorem exec_cases {i : Instr} {s t : State} (h : exec i s = .next t) :
    (∃ r, firstFailing (checksOf s i) = some r ∧ t = s.refuse r)
      ∨ (firstFailing (checksOf s i) = none ∧ Did i (s.setResult .notValid) t) := by
  cases hc : firstFailing (checksOf s i) with
  | some r =>
    rw [exec_of_fail hc] at h
    exact .inl ⟨r, rfl, by cases h; rfl⟩
  | none =>
    refine .inr ⟨rfl, ?_⟩
    cases i with
    | ffInit hz =>
      simp only [exec, execFfInit] at h
      rw [guarded_of_pass (by exact hc)] at h
      cases h
      exact .configured hz rfl rfl
    | start a =>
      simp only [exec, execStart] at h
      rw [guarded_of_pass (by exact hc)] at h
      cases h
      exact .started a _ (.inl ⟨a, rfl⟩) ((startChecks_pass s).1 hc).2 rfl
    | startWait a =>
      simp only [exec, execStartWait] at h
      rw [guarded_of_pass (by exact hc)] at h
      obtain ⟨hr, hb⟩ := (startChecks_pass s).1 hc
      exact .waited a rfl hr hb h
    | repStart a =>
      simp only [exec, execRepStart] at h
      rw [guarded_of_pass (by exact hc)] at h
      cases h
      exact .restarted a _ ((openChecks_pass s).1 hc).2 rfl
    | writeByte d =>
      simp only [exec, execWriteByte] at h
      rw [guarded_of_pass (by exact hc)] at h
      cases h
      exact .wrote d _ ((openChecks_pass s).1 hc).2 rfl
    | readByte k =>
      simp only [exec, execReadByte] at h
      rw [guarded_of_pass (by exact hc)] at h
      cases h
      exact .hasRead k _ ((openChecks_pass s).1 hc).2 rfl
    | stop =>
      simp only [exec, execStop] at h
      rw [guarded_of_pass (by exact hc)] at h
      cases h
      exact .stopped rfl ((openChecks_pass s).1 hc).2 rfl
    | xb nibble bl e rw rs =>
      simp only [exec, execXb] at h
      rw [guarded_of_pass (by exact hc)] at h
      cases h
      exact .wrote _ .notValid ((openChecks_pass s).1 hc).2 rfl
    | ab a d =>
      simp only [exec, execAb] at h
      rw [guarded_of_pass (by exact hc)] at h
      cases h
      cases hb : (s.setResult .notValid).busOpen with
      | true => exact .restarted (addressByte a d) .notValid hb (by simp; rfl)
      | false => exact .started (addressByte a d) .notValid (.inr ⟨a, d, rfl⟩) hb (by simp; rfl)
    | push x =>
      simp only [exec, execPush, raw] at h
      rw [guarded_of_pass (by exact hc)] at h
      cases h
      exact .pushed x ((rawChecks_pass s).1 hc).2.2 rfl
    | cmd8 c =>
      simp only [exec, execCmd8, raw] at h
      rw [guarded_of_pass (by exact hc)] at h
      cases h
      exact .pushed _ ((rawChecks_pass s).1 hc).2.2 rfl
    | cmd4 c =>
      simp only [exec, execCmd4, raw] at h
      rw [guarded_of_pass (by exact hc)] at h
      cases h
      exact .sent [.command c] ((rawChecks_pass s).1 hc).2.2 rfl
    | write c =>
      simp only [exec, execWrite, raw] at h
      rw [guarded_of_pass (by exact hc)] at h
      cases h
      exact .sent [.data c] ((rawChecks_pass s).1 hc).2.2 rfl
    | hcClear =>
      simp only [exec, execHcClear, raw] at h
      rw [guarded_of_pass (by exact hc)] at h
      cases h
      exact .sent [.command _] ((rawChecks_pass s).1 hc).2.2 rfl
    | hcEntryMode l sh =>
      simp only [exec, execHcEntryMode, raw] at h
      rw [guarded_of_pass (by exact hc)] at h
      cases h
      exact .sent [.command _] ((rawChecks_pass s).1 hc).2.2 rfl
    | hcDispCtrl d c b =>
      simp only [exec, execHcDispCtrl, raw] at h
      rw [guarded_of_pass (by exact hc)] at h
      cases h
      exact .sent [.command _] ((rawChecks_pass s).1 hc).2.2 rfl
    | hcSetCgram a =>
      simp only [exec, execHcSetCgram, raw] at h
      rw [guarded_of_pass (by exact hc)] at h
      cases h
      exact .sent [.command _] ((rawChecks_pass s).1 hc).2.2 rfl
    | hcSetDdram a =>
      simp only [exec, execHcSetDdram, raw] at h
      rw [guarded_of_pass (by exact hc)] at h
      cases h
      exact .sent [.command _] ((rawChecks_pass s).1 hc).2.2 rfl
    | hd c =>
      simp only [exec, execHd, raw] at h
      rw [guarded_of_pass (by exact hc)] at h
      cases h
      exact .sent [.data c] ((rawChecks_pass s).1 hc).2.2 rfl
    | hcFuncSet eight two font =>
      simp only [exec, execHcFuncSet, raw] at h
      rw [guarded_of_pass (by exact hc)] at h
      cases h
      cases eight with
      | true => exact .pushed _ ((rawChecks_pass s).1 hc).2.2 rfl
      | false => exact .sent [.command _] ((rawChecks_pass s).1 hc).2.2 rfl
    | setCursorRaw col row =>
      simp only [exec, execSetCursorRaw] at h
      rw [guarded_of_pass (by exact hc)] at h
      split at h
      · cases h
        exact .sent [.command _] ((rawChecks_pass s).1 hc).2.2 rfl
      · cases h
    | lcdInit columns rows =>
      simp only [exec, execLcdInit] at h
      rw [guarded_of_pass (by exact hc)] at h
      obtain ⟨hr, hb, hg⟩ := (lcdInitChecks_pass s columns rows).1 hc
      exact .initialised columns rows rfl hg hr hb h
    | clear =>
      simp only [exec, execClear, Machine.bracketed] at h
      rw [guarded_of_pass (by exact hc)] at h
      obtain ⟨hr, hv, hb⟩ := (bracketChecks_pass s).1 hc
      exact .bracketed _ s.ds rfl hr hv hb (.inl rfl) h
    | print str =>
      simp only [exec, execPrint, Machine.bracketed] at h
      rw [guarded_of_pass (by exact hc)] at h
      obtain ⟨hr, hv, hb⟩ := (bracketChecks_pass s).1 hc
      exact .bracketed _ s.ds rfl hr hv hb (.inl rfl) h
    | printChar c =>
      simp only [exec, execPrintChar, Machine.bracketed] at h
      rw [guarded_of_pass (by exact hc)] at h
      obtain ⟨hr, hv, hb⟩ := (bracketChecks_pass s).1 hc
      exact .bracketed _ s.ds rfl hr hv hb (.inl rfl) h
    | createChar location bitmap =>
      simp only [exec, execCreateChar] at h
      rw [guarded_of_pass (by exact hc)] at h
      obtain ⟨⟨hr, hv, hb⟩, _⟩ := (createCharChecks_pass s bitmap).1 hc
      exact .bracketed _ s.ds rfl hr hv hb (.inl rfl) h
    | setCursor col row =>
      simp only [exec, execSetCursor] at h
      rw [guarded_of_pass (by exact hc)] at h
      obtain ⟨hr, hv, hb⟩ := (bracketChecks_pass s).1 hc
      split at h
      · exact .bracketed _ s.ds rfl hr hv hb (.inl rfl) h
      · cases h
    | display v =>
      simp only [exec, execDisplay, toggleControl] at h
      rw [guarded_of_pass (by exact hc)] at h
      obtain ⟨hr, hv, hb⟩ := (bracketChecks_pass s).1 hc
      exact .bracketed _ _ rfl hr hv hb (.inr (.inr (.inl ⟨_, v, .inl ⟨rfl, rfl⟩, rfl⟩))) h
    | cursor v =>
      simp only [exec, execCursor, toggleControl] at h
      rw [guarded_of_pass (by exact hc)] at h
      obtain ⟨hr, hv, hb⟩ := (bracketChecks_pass s).1 hc
      exact .bracketed _ _ rfl hr hv hb (.inr (.inr (.inl ⟨_, v, .inr (.inl ⟨rfl, rfl⟩), rfl⟩))) h
    | blink v =>
      simp only [exec, execBlink, toggleControl] at h
      rw [guarded_of_pass (by exact hc)] at h
      obtain ⟨hr, hv, hb⟩ := (bracketChecks_pass s).1 hc
      exact .bracketed _ _ rfl hr hv hb (.inr (.inr (.inl ⟨_, v, .inr (.inr ⟨rfl, rfl⟩), rfl⟩))) h
    | direction v =>
      simp only [exec, execDirection, toggleEntryMode] at h
      rw [guarded_of_pass (by exact hc)] at h
      obtain ⟨hr, hv, hb⟩ := (bracketChecks_pass s).1 hc
      exact .bracketed _ _ rfl hr hv hb (.inr (.inr (.inr ⟨_, v, .inl ⟨rfl, rfl⟩, rfl⟩))) h
    | autoshift v =>
      simp only [exec, execAutoshift, toggleEntryMode] at h
      rw [guarded_of_pass (by exact hc)] at h
      obtain ⟨hr, hv, hb⟩ := (bracketChecks_pass s).1 hc
      exact .bracketed _ _ rfl hr hv hb (.inr (.inr (.inr ⟨_, v, .inr ⟨rfl, rfl⟩, rfl⟩))) h
    | backlight v =>
      simp only [exec, execBacklight] at h
      rw [guarded_of_pass (by exact hc)] at h
      obtain ⟨hr, hv, hb⟩ := (bracketChecks_pass s).1 hc
      exact .bracketed _ _ rfl hr hv hb (.inr (.inl ⟨v, rfl, rfl⟩)) h

/-- One more step of a run. -/
theorem run_succ_of_next {s t : State} (k : Nat) (h : step s = .next t) :
    Sys2Proof.core.run (k + 1) s = Sys2Proof.core.run k t := by
  have e : Sys2Proof.core.step s = .next t := h
  simp only [Host.Core.run, e]

end Sys2Proof.Machine
end

