-- ==== Sys2Proof/Laws/PerInstr.lean ====
section
/-! SUPPORT. For every instruction: its words under the default numbers, with which the opcode table
is written, stand in its own row of the table. Written against the table's `match` and `mask`, which
no decoder or encoder reads. -/

namespace Sys2Proof

/-- Where the table puts an instruction: a host operation under its `op_sel`, an output-side format
under a mask and a match (spec/opcode_table.json). -/
inductive Laws.Row where
  | host (opSel : OpSel)
  | xb (mask value : Byte)
  | hc (mask value : Byte)
  | hd (mask value : Byte)
  | ab (mask value : Byte)
  deriving DecidableEq, Repr

/-- The row of every instruction, in the table's order. -/
def Laws.rowOf : Instr → Laws.Row
  | .ffInit _ => .host 0x00#5
  | .start _ => .host 0x01#5
  | .startWait _ => .host 0x02#5
  | .repStart _ => .host 0x03#5
  | .writeByte _ => .host 0x04#5
  | .readByte _ => .host 0x05#5
  | .stop => .host 0x06#5
  | .push _ => .host 0x08#5
  | .cmd4 _ => .host 0x09#5
  | .cmd8 _ => .host 0x0A#5
  | .write _ => .host 0x0B#5
  | .lcdInit _ _ => .host 0x10#5
  | .clear => .host 0x11#5
  | .setCursor _ _ => .host 0x12#5
  | .setCursorRaw _ _ => .host 0x13#5
  | .display _ => .host 0x14#5
  | .cursor _ => .host 0x15#5
  | .blink _ => .host 0x16#5
  | .direction _ => .host 0x17#5
  | .autoshift _ => .host 0x18#5
  | .backlight _ => .host 0x19#5
  | .print _ => .host 0x1A#5
  | .printChar _ => .host 0x1B#5
  | .createChar _ _ => .host 0x1C#5
  | .xb _ _ _ _ _ => .xb 0x00#8 0x00#8
  | .hcClear => .hc 0xFF#8 0x01#8
  | .hcEntryMode _ _ => .hc 0xFC#8 0x04#8
  | .hcDispCtrl _ _ _ => .hc 0xF8#8 0x08#8
  | .hcFuncSet _ _ _ => .hc 0xE3#8 0x20#8
  | .hcSetCgram _ => .hc 0xC7#8 0x40#8
  | .hcSetDdram _ => .hc 0x80#8 0x80#8
  | .hd _ => .hd 0x00#8 0x00#8
  | .ab _ _ => .ab 0x00#8 0x00#8

/-- Words stand in a row. -/
def Laws.Row.Holds : Laws.Row → CodeWord → Prop
  | .host op, .port r => r.opSel = op
  | .xb mask value, .out (.xb v) => v &&& mask = value
  | .hc mask value, .out (.hc v) => v &&& mask = value
  | .hd mask value, .out (.hd v) => v &&& mask = value
  | .ab mask value, .out (.ab v) => v &&& mask = value
  | _, _ => False

/-- Mask and match of the six controller-command rows, in the table's order (R84 to R89). -/
def Laws.hcRows : List (Byte × Byte) :=
  [(0xFF#8, 0x01#8), (0xFC#8, 0x04#8), (0xF8#8, 0x08#8),
   (0xE3#8, 0x20#8), (0xC7#8, 0x40#8), (0x80#8, 0x80#8)]

/-- No two rows of the controller commands share a byte (R84 to R89). -/
theorem Laws.hcRows_disjoint :
    hcRows.Pairwise fun a b => ∀ v : Byte, v &&& a.1 = a.2 → v &&& b.1 ≠ b.2 := by
  decide

/-- Under the default numbers a controller byte decodes exactly if it stands in one of the rows. -/
theorem Laws.decodeHc_defaults (v : Byte) :
    (decodeHc Config.defaults v).toOption.isSome = hcRows.any fun row => v &&& row.1 == row.2 := by
  revert v
  decide

/-- The words of `i` stand in the row of `i`. -/
def Laws.EncodesToItsRow.Statement (i : Instr) : Prop :=
  (Laws.rowOf i).Holds (encode Config.defaults i)

namespace Laws.EncodesToItsRow

theorem ffInit (clockHz : Hz) : Statement (.ffInit clockHz) := rfl
theorem start (address : Byte) : Statement (.start address) := rfl
theorem startWait (address : Byte) : Statement (.startWait address) := rfl
theorem repStart (address : Byte) : Statement (.repStart address) := rfl
theorem writeByte (data : Byte) : Statement (.writeByte data) := rfl
theorem readByte (requestAck : Bool) : Statement (.readByte requestAck) := rfl
theorem stop : Statement .stop := rfl
theorem push (x : Byte) : Statement (.push x) := rfl
theorem cmd4 (cmd : Byte) : Statement (.cmd4 cmd) := rfl
theorem cmd8 (cmd : Byte) : Statement (.cmd8 cmd) := rfl
theorem write (c : Byte) : Statement (.write c) := rfl
theorem lcdInit (columns rows : Byte) : Statement (.lcdInit columns rows) := rfl
theorem clear : Statement .clear := rfl
theorem setCursor (col row : Byte) : Statement (.setCursor col row) := rfl
theorem setCursorRaw (col row : Byte) : Statement (.setCursorRaw col row) := rfl
theorem display (on : Bool) : Statement (.display on) := rfl
theorem cursor (on : Bool) : Statement (.cursor on) := rfl
theorem blink (on : Bool) : Statement (.blink on) := rfl
theorem direction (leftToRight : Bool) : Statement (.direction leftToRight) := rfl
theorem autoshift (on : Bool) : Statement (.autoshift on) := rfl
theorem backlight (on : Bool) : Statement (.backlight on) := rfl
theorem print (str : List Byte) : Statement (.print str) := rfl
theorem printChar (c : Byte) : Statement (.printChar c) := rfl
theorem createChar (location : Byte) (bitmap : List Byte) :
    Statement (.createChar location bitmap) := rfl
theorem xb (nibble : BitVec 4) (bl e rw rs : Bool) : Statement (.xb nibble bl e rw rs) := by
  simp [Statement, encode, rowOf, Row.Holds]
theorem hcClear : Statement .hcClear := rfl
theorem hcEntryMode (left shift : Bool) : Statement (.hcEntryMode left shift) := by
  cases left <;> cases shift <;> rfl
theorem hcDispCtrl (disp curs blnk : Bool) : Statement (.hcDispCtrl disp curs blnk) := by
  cases disp <;> cases curs <;> cases blnk <;> rfl
theorem hcFuncSet (eight two font : Bool) : Statement (.hcFuncSet eight two font) := by
  cases eight <;> cases two <;> cases font <;> rfl
theorem hcSetCgram (slot : BitVec 3) : Statement (.hcSetCgram slot) := by
  simp only [Statement, encode, rowOf, Row.Holds]
  revert slot
  decide
theorem hcSetDdram (addr : BitVec 7) : Statement (.hcSetDdram addr) := by
  simp only [Statement, encode, rowOf, Row.Holds]
  revert addr
  decide
theorem hd (c : Byte) : Statement (.hd c) := by
  simp [Statement, encode, rowOf, Row.Holds]
theorem ab (addr : BitVec 7) (dir : Bool) : Statement (.ab addr dir) := by
  simp [Statement, encode, rowOf, Row.Holds]

end Laws.EncodesToItsRow

end Sys2Proof
end

