-- ==== Sys2Proof/Tests/Slice0.lean ====
section
/-! SUPPORT. The model's own tests. Expected results are the vectors of spec/95_test_vectors.md,
named by their ids, and the bit patterns of spec/30_encoding.md; none is the model's own answer. The
last part shows, for every statement with hypotheses, a state and operands that meet them. -/

namespace Sys2Proof.Tests

open Sys2Proof.Machine

/-! ## States to start from (95_test_vectors.md section 0) -/

/-- The vectors' configuration: the defaults and the example address 0x4E. -/
def cfg : Params := { Config.defaults with devAddr := 0x4E#8 }

/-- A configuration with other numbers that R103 admits. -/
def otherCfg : Params := { cfg with cmdEntryModeSet := 0x10#8, fontDefault := 0x04#8 }

/-- `S16x2`'s display registers. -/
def regs : DisplayState :=
  { backlightOn := true, columnCount := 16#8, lineCount := 2#8
    rowOffsets := #v[0x00#8, 0x40#8, 0x10#8, 0x50#8]
    functionFlags := 0x08#8, controlFlags := 0x04#8, entryModeFlags := 0x02#8 }

/-- `S20x4`'s display registers. -/
def regs20x4 : DisplayState :=
  { regs with
    columnCount := 20#8, lineCount := 4#8, rowOffsets := #v[0x00#8, 0x40#8, 0x14#8, 0x54#8] }

/-- The reset state under the vectors' configuration, with the slave's first answers given. -/
def resetWith (answers : List Ack) : State :=
  { State.reset with cfg := cfg, env := { State.reset.env with answers := answers } }

/-- `READY`. -/
def ready (answers : List Ack) : State := { resetWith answers with ffReady := true }

/-- `READY` with the bus open. -/
def readyOpen (answers : List Ack) : State := { ready answers with busOpen := true }

/-- An initialised block with these registers. -/
def on (d : DisplayState) (answers : List Ack) : State :=
  { ready answers with ds := d, dsValid := true }

/-- The same inside a transaction the host holds open. -/
def onOpen (d : DisplayState) (answers : List Ack) : State :=
  { on d answers with busOpen := true }

/-- Every answer is ACK for as long as a test looks. -/
def acks : List Ack := List.replicate 40 .ack

/-- Something of the next state. -/
def out {α : Type} (f : State → α) (o : Answer) : Option α :=
  match o with
  | .next t => some (f t)
  | .fault _ => none
  | .refused _ => none

/-- One push as the vectors write it, acknowledged: `D(hi) D(lo) W`. -/
def dd (hi lo : Byte) : List Event := [.d hi .ack, .d lo .ack, .w 100]

/-- The bracket `S A(4E,ACK) <body> P`. -/
def br (body : List Event) : List Event := [.s, .a 0x4E#8 .ack] ++ body ++ [.p]

/-- `INIT2`. -/
def init2 : List Event :=
  [.w 40000, .s, .a 0x4E#8 .ack]
    ++ dd 0x3C#8 0x38#8 ++ [.w 4500] ++ dd 0x3C#8 0x38#8 ++ [.w 150] ++ dd 0x3C#8 0x38#8
    ++ dd 0x2C#8 0x28#8
    ++ (dd 0x2C#8 0x28#8 ++ dd 0x8C#8 0x88#8)
    ++ (dd 0x0C#8 0x08#8 ++ dd 0xCC#8 0xC8#8)
    ++ (dd 0x0C#8 0x08#8 ++ dd 0x1C#8 0x18#8)
    ++ (dd 0x0C#8 0x08#8 ++ dd 0x6C#8 0x68#8)
    ++ [.p]

/-! ## Operand checks on syntax: each check refuses an ill-formed term -/

theorem test_wf_no_rows : (Instr.lcdInit 16#8 0#8).wellFormed = false := by decide
theorem test_wf_five_rows : (Instr.lcdInit 16#8 5#8).wellFormed = false := by decide
theorem test_wf_no_columns : (Instr.lcdInit 0#8 2#8).wellFormed = false := by decide
theorem test_wf_geometry : (Instr.lcdInit 1#8 4#8).wellFormed = true := by decide
theorem test_wf_seven_glyph_rows :
    (Instr.createChar 1#8 (List.replicate 7 0#8)).wellFormed = false := by decide
theorem test_wf_nine_glyph_rows :
    (Instr.createChar 1#8 (List.replicate 9 0#8)).wellFormed = false := by decide
theorem test_wf_glyph : (Instr.createChar 1#8 (List.replicate 8 0#8)).wellFormed = true := by decide
theorem test_wf_font : (Instr.hcFuncSet false true true).wellFormed = false := by decide
theorem test_wf_two_line_in_eight_bit : (Instr.hcFuncSet true true false).wellFormed = false := by
  decide

/-! ## Words written out bit by bit from R92's table and the patterns of R80 to R90, R100 -/

theorem test_decode_ff_init :
    decode { opSel := 0b00000#5, argA := 0#8, argB := 0#8, argHz := 100000#32, str := [] }
      = .ok (.ffInit 100000#32) := rfl
theorem test_decode_frame_formatter :
    [0b00001#5, 0b00010#5, 0b00011#5, 0b00100#5].map
        (fun op => (decode (PortRecord.codeA op 0x4E#8)).toOption)
      = [some (.start 0x4E#8), some (.startWait 0x4E#8), some (.repStart 0x4E#8),
          some (.writeByte 0x4E#8)] := by decide
theorem test_decode_read_byte_bit0 :
    [0x01#8, 0xFE#8].map (fun a => (decode (PortRecord.codeA 0b00101#5 a)).toOption)
      = [some (.readByte true), some (.readByte false)] := by decide
theorem test_decode_stop : decode (PortRecord.codeA 0b00110#5 0xFF#8) = .ok .stop := rfl
theorem test_decode_nibble :
    [0b01000#5, 0b01001#5, 0b01010#5, 0b01011#5].map
        (fun op => (decode (PortRecord.codeA op 0xAB#8)).toOption)
      = [some (.push 0xAB#8), some (.cmd4 0xAB#8), some (.cmd8 0xAB#8), some (.write 0xAB#8)] := by
  decide
theorem test_decode_two_operands :
    [0b10000#5, 0b10010#5, 0b10011#5].map
        (fun op => (decode (PortRecord.codeAB op 0x10#8 0x02#8)).toOption)
      = [some (.lcdInit 0x10#8 0x02#8), some (.setCursor 0x10#8 0x02#8),
          some (.setCursorRaw 0x10#8 0x02#8)] := by decide
theorem test_decode_clear : decode (PortRecord.code 0b10001#5) = .ok .clear := rfl
theorem test_decode_toggles :
    [0b10100#5, 0b10101#5, 0b10110#5, 0b10111#5, 0b11000#5, 0b11001#5].map
        (fun op => (decode (PortRecord.codeA op 0x01#8)).toOption)
      = [some (.display true), some (.cursor true), some (.blink true), some (.direction true),
          some (.autoshift true), some (.backlight true)] := by decide
theorem test_decode_text :
    [0b11010#5, 0b11011#5, 0b11100#5].map
        (fun op => (decode { PortRecord.codeA op 0x21#8 with str := [0x48#8, 0x69#8] }).toOption)
      = [some (.print [0x48#8, 0x69#8]), some (.printChar 0x21#8),
          some (.createChar 0x21#8 [0x48#8, 0x69#8])] := by decide
/-- R80: `0100 1101` is nibble 4, BL, E, no RW, RS (X10). -/
theorem test_decode_xb : decodeXb 0b01001101#8 = .xb 0x4#4 true true false true := by decide
theorem test_decode_hc :
    [0b00000001#8, 0b00000110#8, 0b00001100#8, 0b00101000#8, 0b01001000#8, 0b11100111#8].map
        (fun v => (decodeHc cfg v).toOption)
      = [some .hcClear, some (.hcEntryMode true false), some (.hcDispCtrl true false false),
          some (.hcFuncSet false true false), some (.hcSetCgram 1#3), some (.hcSetDdram 0x67#7)] := by
  decide
theorem test_decode_hc_unbuilt :
    [0b00000000#8, 0b00000010#8, 0b00010000#8, 0b00100001#8, 0b01000001#8].map
        (fun v => (decodeHc cfg v).toOption) = [none, none, none, none, none] := by decide
/-- R103: under another number for the entry-mode command, and with `FONT_DEFAULT` not 0, the bytes R85
and R87 build, and no others of their kinds. -/
theorem test_decode_hc_other_numbers :
    [0x12#8, 0x06#8, 0x30#8, 0x2C#8].map (fun v => (decodeHc otherCfg v).toOption)
      = [some (.hcEntryMode true false), none, some (.hcFuncSet true false false),
          some (.hcFuncSet false true true)] := by decide
theorem test_decode_hd : decodeOut cfg (.hd 0x48#8) = .ok (.hd 0x48#8) := rfl
theorem test_decode_ab : decodeAb 0b01001111#8 = .ab 0b0100111#7 true := by decide
/-- V56: the eight reserved codes. -/
theorem test_decode_reserved :
    [0x07#5, 0x0C#5, 0x0D#5, 0x0E#5, 0x0F#5, 0x1D#5, 0x1E#5, 0x1F#5].map
        (fun op => (decode (PortRecord.code op)).toOption)
      = [none, none, none, none, none, none, none, none] := by decide

/-! ## Frame formatter -/

/-- V10 -/
theorem test_ff_init :
    out (fun t => (t.trace, t.ffReady, t.bus.clockHz)) (exec (.ffInit 100000#32) (resetWith []))
      = some ([.cfg 100000#32], true, 100000#32) := by decide
/-- V19 -/
theorem test_ff_init_again :
    out (fun t => t.bus) (exec (.ffInit 400000#32) (ready []))
      = some { clockHz := 400000#32, timing := Config.timingOf 400000#32 } := rfl
/-- V11 -/
theorem test_start :
    out (fun t => (t.trace, t.result, t.busOpen)) (exec (.start 0x4E#8) (ready [.ack]))
      = some ([.s, .a 0x4E#8 .ack], .status true, true) := by decide
/-- V12 -/
theorem test_start_nack :
    out (fun t => (t.result, t.busOpen, t.nackSeen)) (exec (.start 0x4E#8) (ready [.nack]))
      = some (.status false, true, true) := by decide
/-- V13, its first attempt: no result yet, the stop condition sent, the ghost bit clear. -/
theorem test_start_wait_first_attempt :
    out (fun t => (t.trace, t.seq, t.busOpen, t.nackSeen))
        (exec (.startWait 0x4E#8) (ready [.nack, .nack, .ack]))
      = some ([.s, .a 0x4E#8 .nack, .p], .startWait 0x4E#8 1 .hostStart, false, false) := by decide
/-- V13, an attempt that is acknowledged. -/
theorem test_start_wait_acknowledged :
    out (fun t => (t.trace, t.seq, t.result, t.busOpen))
        (step { ready [.ack] with seq := .startWait 0x4E#8 2 .hostStart })
      = some ([.s, .a 0x4E#8 .ack], .idle, .status true, true) := by decide
/-- V14 -/
theorem test_rep_start :
    out (fun t => (t.trace, t.result, t.busOpen)) (exec (.repStart 0x4F#8) (readyOpen [.ack]))
      = some ([.sr, .a 0x4F#8 .ack], .status true, true) := by decide
/-- V15a -/
theorem test_write_byte :
    out (fun t => (t.trace, t.result)) (exec (.writeByte 0x3C#8) (readyOpen [.ack]))
      = some ([.d 0x3C#8 .ack], .status true) := by decide
/-- V15b -/
theorem test_write_byte_nack :
    out (fun t => (t.result, t.busOpen, t.nackSeen)) (exec (.writeByte 0x3C#8) (readyOpen [.nack]))
      = some (.status false, true, true) := by decide
/-- V16a -/
theorem test_read_byte :
    out (fun t => (t.trace, t.result))
        (exec (.readByte true) { readyOpen [] with env := { State.reset.env with bytes := [0xA5#8] } })
      = some ([.r 0xA5#8 .ack], .readData 0xA5#8) := by decide
/-- V16b -/
theorem test_read_byte_last :
    out (fun t => t.trace)
        (exec (.readByte false) { readyOpen [] with env := { State.reset.env with bytes := [0x5A#8] } })
      = some [.r 0x5A#8 .nack] := by decide
/-- V17 -/
theorem test_stop :
    out (fun t => (t.trace, t.busOpen)) (exec .stop (readyOpen [])) = some ([.p], false) := by decide

/-! ## Nibble operations -/

/-- V20 -/
theorem test_push :
    out (fun t => t.trace) (exec (.push 0xFF#8) (onOpen regs acks))
      = some (dd 0xFF#8 0xFB#8) := by decide
/-- V21 -/
theorem test_push_dark :
    out (fun t => t.trace) (exec (.push 0xFF#8) (onOpen { regs with backlightOn := false } acks))
      = some (dd 0xF7#8 0xF3#8) := by decide
/-- V24 -/
theorem test_cmd4 :
    out (fun t => (t.trace, t.result)) (exec (.cmd4 0xAB#8) (onOpen regs acks))
      = some (dd 0xAC#8 0xA8#8 ++ dd 0xBC#8 0xB8#8, .notValid) := by decide
/-- V29b -/
theorem test_cmd4_nack :
    out (fun t => (t.trace, t.nackSeen)) (exec (.cmd4 0xAB#8) (onOpen regs (List.replicate 4 .nack)))
      = some ([.d 0xAC#8 .nack, .d 0xA8#8 .nack, .w 100, .d 0xBC#8 .nack, .d 0xB8#8 .nack, .w 100],
          true) := by decide
/-- V25 -/
theorem test_cmd8 :
    out (fun t => t.trace) (exec (.cmd8 0x3F#8) (onOpen regs acks))
      = some (dd 0x3C#8 0x38#8) := by decide
/-- V26 -/
theorem test_write :
    out (fun t => t.trace) (exec (.write 0x48#8) (onOpen regs acks))
      = some (dd 0x4D#8 0x49#8 ++ dd 0x8D#8 0x89#8) := by decide
/-- V29 -/
theorem test_write_dark :
    out (fun t => t.trace) (exec (.write 0x00#8) (onOpen { regs with backlightOn := false } acks))
      = some (dd 0x05#8 0x01#8 ++ dd 0x05#8 0x01#8) := by decide

/-! ## Initialisation -/

/-- V30 -/
theorem test_lcd_init :
    out (fun t => (t.trace, t.ds, t.dsValid, t.busOpen)) (exec (.lcdInit 16#8 2#8) (ready acks))
      = some (init2, regs, true, false) := by decide
/-- V33b -/
theorem test_lcd_init_wraps :
    out (fun t => t.ds.rowOffsets) (exec (.lcdInit 255#8 4#8) (ready acks))
      = some #v[0x00#8, 0x40#8, 0xFF#8, 0x3F#8] := by decide
/-- V34e, the attempt that is acknowledged: the rest of `INIT2`, the power-on wait not repeated. -/
theorem test_lcd_init_second_attempt :
    out (fun t => (t.trace, t.ds, t.dsValid, t.seq))
        (step { ready acks with
          ds := { regs20x4 with backlightOn := true }
          seq := .startWait 0x4E#8 1 (.handshake 16#8 2#8) })
      = some (init2.tail, regs, true, .idle) := by decide

/-! ## Commands -/

/-- V39 -/
theorem test_clear :
    out (fun t => t.trace) (exec .clear (on regs acks))
      = some (br (dd 0x0C#8 0x08#8 ++ dd 0x1C#8 0x18#8)) := by decide
/-- V35f -/
theorem test_set_cursor_clamps :
    out (fun t => t.trace) (exec (.setCursor 99#8 99#8) (on regs20x4 acks))
      = some (br (dd 0xEC#8 0xE8#8 ++ dd 0x7C#8 0x78#8)) := by decide
/-- V35e -/
theorem test_set_cursor_clamps_up :
    out (fun t => t.trace) (exec (.setCursor 0#8 0#8) (on regs acks))
      = some (br (dd 0x8C#8 0x88#8 ++ dd 0x0C#8 0x08#8)) := by decide
/-- V35l -/
theorem test_set_cursor_raw :
    out (fun t => (t.trace, t.busOpen)) (exec (.setCursorRaw 3#8 1#8) (onOpen regs acks))
      = some (dd 0x8C#8 0x88#8 ++ dd 0x2C#8 0x28#8, true) := by decide
/-- V36d -/
theorem test_display_off :
    out (fun t => (t.ds.controlFlags, t.trace))
        (exec (.display false) (on { regs with controlFlags := 0x07#8 } acks))
      = some (0x03#8, br (dd 0x0C#8 0x08#8 ++ dd 0xBC#8 0xB8#8)) := by decide
/-- V36a -/
theorem test_cursor_on :
    out (fun t => (t.ds.controlFlags, t.trace)) (exec (.cursor true) (on regs acks))
      = some (0x06#8, br (dd 0x0C#8 0x08#8 ++ dd 0xEC#8 0xE8#8)) := by decide
/-- V36c -/
theorem test_blink_on :
    out (fun t => (t.ds.controlFlags, t.trace))
        (exec (.blink true) (on { regs with controlFlags := 0x06#8 } acks))
      = some (0x07#8, br (dd 0x0C#8 0x08#8 ++ dd 0xFC#8 0xF8#8)) := by decide
/-- V37a -/
theorem test_direction_off :
    out (fun t => (t.ds.entryModeFlags, t.trace)) (exec (.direction false) (on regs acks))
      = some (0x00#8, br (dd 0x0C#8 0x08#8 ++ dd 0x4C#8 0x48#8)) := by decide
/-- V37b -/
theorem test_autoshift_on :
    out (fun t => (t.ds.entryModeFlags, t.trace))
        (exec (.autoshift true) (on { regs with entryModeFlags := 0x00#8 } acks))
      = some (0x01#8, br (dd 0x0C#8 0x08#8 ++ dd 0x5C#8 0x58#8)) := by decide
/-- V38a -/
theorem test_backlight_off :
    out (fun t => (t.ds.backlightOn, t.trace))
        (exec (.backlight false) (on { regs with controlFlags := 0x05#8 } acks))
      = some (false, br (dd 0x04#8 0x00#8 ++ dd 0xD4#8 0xD0#8)) := by decide

/-- R112, R186: the only attempt that is allowed is in the trace, and the run is faulted after it. -/
theorem test_clear_unanswered :
    out (fun t => (t.trace, t.busOpen, t.seq))
        (exec .clear { on regs [.nack] with cfg := { cfg with maxAttempts := some 1 } })
      = some ([.s, .a 0x4E#8 .nack, .p], false, .faulted) := by decide

/-! ## Text and glyphs -/

/-- V42 -/
theorem test_print_stops_at_terminator :
    out (fun t => t.trace) (exec (.print [0x41#8, 0x00#8, 0x42#8]) (on regs acks))
      = some (br (dd 0x4D#8 0x49#8 ++ dd 0x1D#8 0x19#8)) := by decide
/-- V41 -/
theorem test_print_empty :
    out (fun t => t.trace) (exec (.print []) (on regs acks)) = some (br []) := by decide
/-- V43b -/
theorem test_print_char_terminator :
    out (fun t => t.trace) (exec (.printChar 0x00#8) (on regs acks))
      = some (br (dd 0x0D#8 0x09#8 ++ dd 0x0D#8 0x09#8)) := by decide
/-- V59 -/
theorem test_print_char_ignores_nack :
    out (fun t => (t.trace, t.busOpen, t.nackSeen))
        (exec (.printChar 0x21#8) (on regs (.ack :: List.replicate 4 .nack)))
      = some ([.s, .a 0x4E#8 .ack, .d 0x2D#8 .nack, .d 0x29#8 .nack, .w 100, .d 0x1D#8 .nack,
          .d 0x19#8 .nack, .w 100, .p], false, true) := by decide
/-- V44 -/
theorem test_create_char :
    out (fun t => t.trace)
        (exec (.createChar 9#8 [0x00#8, 0x0A#8, 0x1F#8, 0x1F#8, 0x0E#8, 0x04#8, 0x00#8, 0xFF#8])
          (on regs acks))
      = some (br (dd 0x4C#8 0x48#8 ++ dd 0x8C#8 0x88#8
          ++ dd 0x0D#8 0x09#8 ++ dd 0x0D#8 0x09#8 ++ dd 0x0D#8 0x09#8 ++ dd 0xAD#8 0xA9#8
          ++ dd 0x1D#8 0x19#8 ++ dd 0xFD#8 0xF9#8 ++ dd 0x1D#8 0x19#8 ++ dd 0xFD#8 0xF9#8
          ++ dd 0x0D#8 0x09#8 ++ dd 0xED#8 0xE9#8 ++ dd 0x0D#8 0x09#8 ++ dd 0x4D#8 0x49#8
          ++ dd 0x0D#8 0x09#8 ++ dd 0x0D#8 0x09#8 ++ dd 0x1D#8 0x19#8 ++ dd 0xFD#8 0xF9#8)) := by
  decide
/-- V45 -/
theorem test_create_char_seven_rows :
    out (fun t => (t.trace, t.refusal)) (exec (.createChar 1#8 (List.replicate 7 0#8)) (on regs acks))
      = some ([], some .badOperand) := by decide

/-! ## Output-side formats (log 13): the bytes of the vectors above -/

theorem test_xb :
    out (fun t => t.trace) (exec (.xb 0x4#4 true true false true) (readyOpen acks))
      = some [.d 0x4D#8 .ack] := by decide
/-- The body of V39. -/
theorem test_hc_clear :
    out (fun t => t.trace) (exec .hcClear (onOpen regs acks))
      = some (dd 0x0C#8 0x08#8 ++ dd 0x1C#8 0x18#8) := by decide
/-- The body of V37c, command 0x07. -/
theorem test_hc_entry_mode :
    out (fun t => t.trace) (exec (.hcEntryMode true true) (onOpen regs acks))
      = some (dd 0x0C#8 0x08#8 ++ dd 0x7C#8 0x78#8) := by decide
/-- The body of V36d, command 0x0B. -/
theorem test_hc_disp_ctrl :
    out (fun t => t.trace) (exec (.hcDispCtrl false true true) (onOpen regs acks))
      = some (dd 0x0C#8 0x08#8 ++ dd 0xBC#8 0xB8#8) := by decide
/-- INIT2's 8-bit function-set, 0x30, a single nibble. -/
theorem test_hc_func_set_eight :
    out (fun t => t.trace) (exec (.hcFuncSet true false false) (onOpen regs acks))
      = some (dd 0x3C#8 0x38#8) := by decide
/-- INIT2's function-set 0x28. -/
theorem test_hc_func_set_four :
    out (fun t => t.trace) (exec (.hcFuncSet false true false) (onOpen regs acks))
      = some (dd 0x2C#8 0x28#8 ++ dd 0x8C#8 0x88#8) := by decide
/-- V44's command 0x48. -/
theorem test_hc_set_cgram :
    out (fun t => t.trace) (exec (.hcSetCgram 1#3) (onOpen regs acks))
      = some (dd 0x4C#8 0x48#8 ++ dd 0x8C#8 0x88#8) := by decide
/-- V35b's command 0xC0. -/
theorem test_hc_set_ddram :
    out (fun t => t.trace) (exec (.hcSetDdram 0x40#7) (onOpen regs acks))
      = some (dd 0xCC#8 0xC8#8 ++ dd 0x0C#8 0x08#8) := by decide
/-- V26's data byte. -/
theorem test_hd :
    out (fun t => t.trace) (exec (.hd 0x48#8) (onOpen regs acks))
      = some (dd 0x4D#8 0x49#8 ++ dd 0x8D#8 0x89#8) := by decide
/-- V14's address byte. -/
theorem test_ab :
    out (fun t => t.trace) (exec (.ab 0b0100111#7 true) (readyOpen acks))
      = some [.sr, .a 0x4F#8 .ack] := by decide

/-! ## Refusals (95_test_vectors.md section 2.6) -/

/-- V51 (the order of the checks), V52b, V54, V53b, V34c, V57b (`BusOpen` before `BadGeometry`):
nothing emitted, and the reason. -/
theorem test_refusals :
    [exec (.push 0x30#8) (resetWith []), exec (.cmd4 0x01#8) (readyOpen []),
        exec (.setCursor 1#8 1#8) (onOpen regs []), exec (.setCursorRaw 1#8 1#8) (on regs []),
        exec (.lcdInit 16#8 5#8) (ready []), exec (.lcdInit 16#8 9#8) (onOpen regs [])].map
        (out fun t => (t.trace, t.refused, t.refusal))
      = [some ([], true, some .notReady), some ([], true, some .notInitialised),
          some ([], true, some .busOpen), some ([], true, some .busClosed),
          some ([], true, some .badGeometry), some ([], true, some .busOpen)] := by decide

/-! ## Witnesses: every statement's hypotheses are met together

Several statements about operations of one shape share their hypotheses; the theorem names them
all. -/

/-- The hypotheses of a bracketed operation acknowledged at once. -/
abbrev BracketAcked (s : State) : Prop :=
  s.ffReady = true ∧ s.dsValid = true ∧ s.busOpen = false ∧ s.ack 0 = .ack

/-- The hypotheses of a raw operation. -/
abbrev RawReady (s : State) : Prop := s.ffReady = true ∧ s.dsValid = true ∧ s.busOpen = true

/-- ReservedCodesAreRefused: an idle block with a reserved code presented. -/
theorem test_meets_reserved_code :
    (resetWith []).seq = .idle
      ∧ ({ resetWith [] with port := [PortRecord.code 0x1F#5] } : State).port
          = PortRecord.code 0x1F#5 :: []
      ∧ (PortRecord.code 0x1F#5).opSel
          ∈ [0x07#5, 0x0C#5, 0x0D#5, 0x0E#5, 0x0F#5, 0x1D#5, 0x1E#5, 0x1F#5] := by decide

/-- StepRunsTheDecodedInstruction, first clause. -/
theorem test_meets_step_port :
    ({ resetWith [] with port := [PortRecord.code 0x06#5] } : State).seq = .idle
      ∧ ({ resetWith [] with port := [PortRecord.code 0x06#5] } : State).port
          = PortRecord.code 0x06#5 :: []
      ∧ decode (PortRecord.code 0x06#5) = .ok .stop := ⟨rfl, rfl, rfl⟩
/-- StepRunsTheDecodedInstruction, second clause. -/
theorem test_meets_step_sending :
    ({ resetWith [] with seq := .sending (.hc 0x01#8) } : State).seq = .sending (.hc 0x01#8)
      ∧ decodeOut ({ resetWith [] with seq := .sending (.hc 0x01#8) } : State).cfg (.hc 0x01#8)
        = .ok .hcClear := ⟨rfl, rfl⟩

/-- IdleBlockWaitsForTheHost -/
theorem test_meets_idle : (resetWith []).seq = .idle ∧ (resetWith []).port = [] := ⟨rfl, rfl⟩

/-- A block in the retry loop of START_WAIT, one attempt failed. -/
def waiting (after : After) (answers : List Ack) : State :=
  { on regs answers with seq := .startWait 0x4E#8 1 after }

/-- The same with at most two attempts. -/
def waitingTwo (after : After) (answers : List Ack) : State :=
  { waiting after answers with cfg := { cfg with maxAttempts := some 2 } }

/-- An initialised block that may make one attempt. -/
def onlyOne (answers : List Ack) : State :=
  { on regs20x4 answers with cfg := { cfg with maxAttempts := some 1 } }

/-- BusyBlockAcceptsNothing -/
theorem test_meets_busy :
    (waiting (.bracket []) acks).seq = .startWait 0x4E#8 1 (.bracket [])
      ∧ ∃ t, step (waiting (.bracket []) acks) = .next t := ⟨rfl, _, rfl⟩

/-- FfInitConfiguresTheBus, both clauses. -/
theorem test_meets_ff_init :
    (resetWith []).busOpen = false ∧ (readyOpen []).busOpen = true := by decide
/-- The refusal clauses of StartMakesOneAttempt (bus open), RepeatedStartKeepsTheBus,
WriteByteSendsItsByte, ReadByteReturnsTheSlavesByte and StopReleasesTheBus (bus closed). -/
theorem test_meets_frame_formatter_refusals :
    (resetWith []).ffReady = false
      ∧ ((readyOpen []).ffReady = true ∧ (readyOpen []).busOpen = true)
      ∧ ((ready []).ffReady = true ∧ (ready []).busOpen = false) := by decide

/-- StartMakesOneAttempt, StartWaitAcknowledged (answer ACK). -/
theorem test_meets_start :
    (ready [.ack]).ffReady = true ∧ (ready [.ack]).busOpen = false
      ∧ (ready [.ack]).ack 0 = .ack := by decide
/-- StartWaitEntersTheRetryLoop, with unbounded attempts. -/
theorem test_meets_start_wait_nack :
    (ready [.nack]).ffReady = true ∧ (ready [.nack]).busOpen = false
      ∧ (ready [.nack]).ack 0 = .nack
      ∧ ∀ m, (ready [.nack]).cfg.maxAttempts = some m → 1 < m :=
  ⟨rfl, rfl, rfl, fun _ h => nomatch h⟩
/-- StartWaitEntersTheRetryLoop, at the least finite bound. -/
theorem test_meets_start_wait_nack_two :
    ∀ m, ({ cfg with maxAttempts := some 2 } : Params).maxAttempts = some m → 1 < m := by
  intro m h
  cases h
  decide

/-- RepeatedStartKeepsTheBus, WriteByteSendsItsByte, ReadByteReturnsTheSlavesByte,
StopReleasesTheBus, ExpanderByteIsOneDataByte, AddressByteFollowsAStart (bus open). -/
theorem test_meets_open : (readyOpen []).ffReady = true ∧ (readyOpen []).busOpen = true := by decide

/-- AddressByteFollowsAStart (bus closed). -/
theorem test_meets_address_byte : (ready []).ffReady = true ∧ (ready []).busOpen = false := by decide

/-- PushStrobesTheEnableLine, PushForEitherBacklightParameter, Cmd4SendsTwoNibbles,
Cmd8SendsTheHighNibble, WriteSendsTwoDataNibbles, DataFormatSendsTwoNibbles. -/
theorem test_meets_raw :
    (onOpen regs acks).ffReady = true ∧ (onOpen regs acks).dsValid = true
      ∧ (onOpen regs acks).busOpen = true ∧ (onOpen regs acks).cfg.pushLoBl = .follow := by decide
/-- PushForEitherBacklightParameter under `low`. -/
theorem test_meets_raw_low :
    ({ onOpen regs acks with cfg := { cfg with pushLoBl := .low } } : State).busOpen = true
      ∧ ({ onOpen regs acks with cfg := { cfg with pushLoBl := .low } } : State).cfg.pushLoBl
          = .low := by decide

/-- LcdInitRunsTheHandshake, at the smallest and the largest geometry. -/
theorem test_meets_lcd_init :
    (ready acks).ffReady = true ∧ (ready acks).busOpen = false ∧ (ready acks).ack 0 = .ack
      ∧ 1 ≤ (1#8 : Byte).toNat ∧ (1#8 : Byte).toNat ≤ 4 ∧ 1 ≤ (1#8 : Byte).toNat
      ∧ 1 ≤ (4#8 : Byte).toNat ∧ (4#8 : Byte).toNat ≤ 4 ∧ 1 ≤ (255#8 : Byte).toNat := by decide
/-- LcdInitWaitsAddUp, at the smallest and the largest geometry. -/
theorem test_meets_init_waits :
    (ready acks).InitReady 1#8 1#8 ∧ (ready acks).InitReady 255#8 4#8 ∧ (ready acks).ack 0 = .ack := by
  decide
/-- LcdInitWaitsInItsOpeningStart, with unbounded attempts; at the least finite bound by
test_meets_attempts_left. -/
theorem test_meets_lcd_init_nack :
    (ready [.nack]).InitReady 1#8 1#8 ∧ (ready [.nack]).InitReady 255#8 4#8
      ∧ (ready [.nack]).ack 0 = .nack ∧ (ready [.nack]).AttemptsLeft 1 :=
  ⟨by decide, by decide, rfl, fun _ h => nomatch h⟩

/-- ClearSendsClearDisplay, BacklightResendsDisplayControl, PrintCharSendsOneDataByte,
CreateCharSendsEightRows (with the list). -/
theorem test_meets_bracket :
    (on regs acks).ffReady = true ∧ (on regs acks).dsValid = true ∧ (on regs acks).busOpen = false
      ∧ (on regs acks).ack 0 = .ack ∧ (List.replicate 8 (0#8 : Byte)).length = 8 := by decide
/-- SetCursorSendsTheClampedAddress: the row clamped up to the first, inside,
and clamped down to the last. -/
theorem test_meets_set_cursor :
    BracketAcked (on regs20x4 acks) ∧ 1 ≤ regs20x4.columnCount.toNat
      ∧ (0 : Fin 4).val + 1 = min (max (0#8 : Byte).toNat 1) regs20x4.lineCount.toNat
      ∧ (2 : Fin 4).val + 1 = min (max (3#8 : Byte).toNat 1) regs20x4.lineCount.toNat
      ∧ (3 : Fin 4).val + 1 = min (max (99#8 : Byte).toNat 1) regs20x4.lineCount.toNat := by decide
/-- SetCursorRawSendsTheClampedAddress -/
theorem test_meets_set_cursor_raw :
    RawReady (onOpen regs acks) ∧ 1 ≤ (onOpen regs acks).ds.columnCount.toNat
      ∧ (1 : Fin 4).val + 1
          = min (max (2#8 : Byte).toNat 1) (onOpen regs acks).ds.lineCount.toNat := by decide
/-- LegalRegistersGiveACursorAddress -/
theorem test_meets_legal : regs.Legal cfg ∧ regs20x4.Legal cfg := by decide

/-- ControlTogglesResendTheRegister, all three. -/
theorem test_meets_control_toggles (v : Bool) :
    BracketAcked (on regs acks) ∧
    (Instr.display v, cfg.displayOn) ∈ [(Instr.display v, cfg.displayOn), (.cursor v, cfg.cursorOn),
        (.blink v, cfg.blinkOn)]
      ∧ (Instr.cursor v, cfg.cursorOn) ∈ [(Instr.display v, cfg.displayOn),
        (.cursor v, cfg.cursorOn), (.blink v, cfg.blinkOn)]
      ∧ (Instr.blink v, cfg.blinkOn) ∈ [(Instr.display v, cfg.displayOn), (.cursor v, cfg.cursorOn),
        (.blink v, cfg.blinkOn)] := ⟨by decide, by simp⟩
/-- EntryModeTogglesResendTheRegister, both. -/
theorem test_meets_entry_mode_toggles (v : Bool) :
    BracketAcked (on regs acks) ∧
    (Instr.direction v, cfg.leftEntry)
        ∈ [(Instr.direction v, cfg.leftEntry), (.autoshift v, cfg.shiftIncrement)]
      ∧ (Instr.autoshift v, cfg.shiftIncrement)
        ∈ [(Instr.direction v, cfg.leftEntry), (.autoshift v, cfg.shiftIncrement)] := ⟨by decide, by simp⟩
/-- RepeatedToggleIsIdempotent, each toggle. -/
theorem test_meets_repeated_toggle (v : Bool) :
    (on regs acks).BracketReady ∧ (on regs acks).ack 0 = .ack
      ∧ ∀ i ∈ [Instr.display v, .cursor v, .blink v, .direction v, .autoshift v, .backlight v],
        ∃ t u, exec i (on regs acks) = .next t ∧ t.ack 0 = .ack ∧ exec i t = .next u := by
  refine ⟨by decide, rfl, ?_⟩
  simp only [List.forall_mem_cons]
  exact ⟨⟨_, _, rfl, rfl, rfl⟩, ⟨_, _, rfl, rfl, rfl⟩, ⟨_, _, rfl, rfl, rfl⟩, ⟨_, _, rfl, rfl, rfl⟩,
    ⟨_, _, rfl, rfl, rfl⟩, ⟨_, _, rfl, rfl, rfl⟩, fun _ h => nomatch h⟩
/-- Every bracketed operation is one that `bracketOf` describes, a cursor placement at both clamps. -/
theorem test_meets_bracket_of (v : Bool) (c : Byte) (str : List Byte) (answers : List Ack) :
    ∀ i ∈ [Instr.clear, .setCursor 0#8 0#8, .setCursor 99#8 99#8, .display v, .cursor v, .blink v,
        .direction v, .autoshift v, .backlight v, .print str, .printChar c,
        .createChar c (List.replicate 8 c)],
      ∃ d body, (on regs20x4 answers).bracketOf i = some (d, body) := by
  simp only [List.forall_mem_cons]
  exact ⟨⟨_, _, rfl⟩, ⟨_, _, rfl⟩, ⟨_, _, rfl⟩, ⟨_, _, rfl⟩, ⟨_, _, rfl⟩, ⟨_, _, rfl⟩, ⟨_, _, rfl⟩,
    ⟨_, _, rfl⟩, ⟨_, _, rfl⟩, ⟨_, _, rfl⟩, ⟨_, _, rfl⟩, ⟨_, _, rfl⟩, fun _ h => nomatch h⟩
/-- BracketedOperationWritesBeforeItsStart, with unbounded attempts. -/
theorem test_meets_bracket_nack :
    (on regs20x4 [.nack]).BracketReady ∧ (on regs20x4 [.nack]).ack 0 = .nack
      ∧ (on regs20x4 [.nack]).AttemptsLeft 1 := ⟨by decide, rfl, fun _ h => nomatch h⟩
/-- BracketedOperationWritesBeforeItsStart, at the least finite bound. -/
theorem test_meets_attempts_left :
    ({ on regs20x4 [.nack] with cfg := { cfg with maxAttempts := some 2 } } : State).AttemptsLeft 1 := by
  intro m h
  cases h
  decide
/-- PrintSendsUpToTheTerminator -/
theorem test_meets_print : BracketAcked (on regs acks) ∧ ∀ c ∈ [0x48#8, 0x69#8], c ≠ (on regs acks).cfg.terminator := by decide
/-- PrintTraceLength -/
theorem test_meets_print_next :
    (BracketAcked (on regs acks) ∧ ∀ c ∈ [0x48#8, 0x69#8], c ≠ (on regs acks).cfg.terminator)
      ∧ ∃ t, exec (.print [0x48#8, 0x69#8]) (on regs acks) = .next t :=
  ⟨test_meets_print, _, rfl⟩

/-- CommandFormatsSendTheirPattern: a format sent as a single nibble and one sent as two, under the
default numbers and under others. -/
theorem test_meets_command_formats :
    RawReady (onOpen regs acks) ∧ RawReady { onOpen regs acks with cfg := otherCfg }
      ∧ encode cfg (.hcFuncSet true false false) = .out (.hc 0x30#8)
      ∧ (∀ two font, Instr.hcEntryMode true false ≠ .hcFuncSet true two font)
      ∧ encode cfg (.hcEntryMode true false) = .out (.hc 0x06#8)
      ∧ encode otherCfg (.hcEntryMode true false) = .out (.hc 0x12#8) :=
  ⟨by decide, by decide, by decide, fun _ _ h => (nomatch h), by decide, by decide⟩

/-- WrongUseIsRefusedByTheFirstReason: a state for every reason of R190 but `ReservedOp`, which is
no operation's. -/
theorem test_meets_wrong_use :
    (resetWith []).reported .clear = some .notReady
      ∧ (ready []).reported .clear = some .notInitialised
      ∧ (onOpen regs []).reported .clear = some .busOpen
      ∧ (on regs []).reported .stop = some .busClosed
      ∧ (ready []).reported (.lcdInit 0#8 2#8) = some .badGeometry
      ∧ (on regs []).reported (.createChar 0#8 []) = some .badOperand := by decide
/-- LegalUseIsNotRefused -/
theorem test_meets_legal_use :
    Instr.isHostOp .clear = true ∧ (on regs acks).reported .clear = none
      ∧ ∃ t, exec .clear (on regs acks) = .next t := ⟨rfl, rfl, _, rfl⟩

/-- UnansweredStartRepeatsForEver, for two steps. -/
theorem test_meets_unanswered :
    (waiting (.bracket []) [.nack, .nack]).seq = .startWait 0x4E#8 1 (.bracket [])
      ∧ (waiting (.bracket []) [.nack, .nack]).cfg.maxAttempts = none
      ∧ ∀ i, i < 2 → (waiting (.bracket []) [.nack, .nack]).ack i = .nack := by
  refine ⟨rfl, rfl, fun i h => ?_⟩
  obtain rfl | rfl : i = 0 ∨ i = 1 := by omega
  all_goals rfl
/-- OperationRetriesUntilAcknowledged, for two failed attempts and for none. -/
theorem test_meets_retries :
    (on regs20x4 [.nack, .nack, .ack]).BracketReady
      ∧ (on regs20x4 [.nack, .nack, .ack]).InitReady 16#8 2#8
      ∧ (on regs20x4 [.nack, .nack, .ack]).AttemptsLeft 2
      ∧ (∀ j, j < 2 → (on regs20x4 [.nack, .nack, .ack]).ack j = .nack)
      ∧ (on regs20x4 [.nack, .nack, .ack]).ack 2 = .ack
      ∧ (∀ j, j < 0 → (on regs20x4 acks).ack j = .nack) ∧ (on regs20x4 acks).ack 0 = .ack := by
  refine ⟨by decide, by decide, fun _ h => (nomatch h), fun j h => ?_, rfl, fun j h => by omega, rfl⟩
  obtain rfl | rfl : j = 0 ∨ j = 1 := by omega
  all_goals rfl
/-- WaitingOperationCompletesOnAcknowledge, each clause. -/
theorem test_meets_waiting_acknowledged :
    (waiting .hostStart acks).seq = .startWait 0x4E#8 1 .hostStart
      ∧ (waiting (.bracket [.data 0x21#8]) acks).seq = .startWait 0x4E#8 1 (.bracket [.data 0x21#8])
      ∧ (waiting (.handshake 16#8 2#8) acks).seq =
        .startWait ((waiting (.handshake 16#8 2#8) acks).cfg.devAddr
          &&& ~~~ (waiting (.handshake 16#8 2#8) acks).cfg.dirMask) 1 (.handshake 16#8 2#8)
      ∧ (waiting (.handshake 16#8 2#8) acks).ds.backlightOn = true
      ∧ (waiting .hostStart acks).ack 0 = .ack ∧ (waiting (.bracket [.data 0x21#8]) acks).ack 0 = .ack
      ∧ (waiting (.handshake 16#8 2#8) acks).ack 0 = .ack := by decide
/-- DriverOperationFaultsWhenAttemptsRunOut, in the retry loop at the last attempt: a bracketed
operation and LCD_INIT. -/
theorem test_meets_driver_gives_up :
    (waitingTwo (.bracket []) [.nack]).seq = .startWait 0x4E#8 1 (.bracket [])
      ∧ (waitingTwo (.handshake 16#8 2#8) [.nack]).seq = .startWait 0x4E#8 1 (.handshake 16#8 2#8)
      ∧ After.bracket [] ≠ .hostStart ∧ After.handshake 16#8 2#8 ≠ .hostStart
      ∧ (waitingTwo (.bracket []) [.nack]).cfg.maxAttempts = some 2
      ∧ 2 ≤ 1 + 1 ∧ (waitingTwo (.bracket []) [.nack]).cfg.retryStop = true
      ∧ (waitingTwo (.bracket []) [.nack]).ack 0 = .nack := by decide
/-- The same at the first attempt, where one is allowed: `bracketOf` by test_meets_bracket_of. -/
theorem test_meets_first_is_last :
    (onlyOne [.nack]).BracketReady ∧ (onlyOne [.nack]).InitReady 16#8 2#8
      ∧ (onlyOne [.nack]).bracketOf .clear = some (regs20x4, [.command 0x01#8])
      ∧ (onlyOne [.nack]).cfg.maxAttempts = some 1 ∧ (onlyOne [.nack]).cfg.retryStop = true
      ∧ (onlyOne [.nack]).ack 0 = .nack := by decide
/-- DriverOperationFaultsWhenAttemptsRunOut, faulted. -/
theorem test_meets_faulted : ({ onlyOne [] with seq := .faulted } : State).seq = .faulted := rfl
/-- StartWaitGivesUpWithFailure, at the last attempt; at the first by test_meets_first_is_last. -/
theorem test_meets_start_wait_gives_up :
    (waitingTwo .hostStart [.nack]).seq = .startWait 0x4E#8 1 .hostStart
      ∧ (waitingTwo .hostStart [.nack]).busOpen = false
      ∧ (waitingTwo .hostStart [.nack]).cfg.maxAttempts = some 2
      ∧ 2 ≤ 1 + 1 ∧ (waitingTwo .hostStart [.nack]).cfg.retryStop = true
      ∧ (waitingTwo .hostStart [.nack]).ack 0 = .nack := by decide

/-- AnswersAfterTheStartAreIgnored: a bracketed operation whose data bytes are answered in two
ways. -/
theorem test_meets_answers_bracketed :
    (on regs acks).ack 0 = .ack ∧ (on regs (.ack :: List.replicate 4 .nack)).ack 0 = .ack
      ∧ ∃ t t', exec .clear (on regs acks) = .next t
        ∧ exec .clear { on regs acks with
            env := (on regs (.ack :: List.replicate 4 .nack)).env } = .next t' :=
  ⟨rfl, rfl, _, _, rfl, rfl⟩
/-- AnswersAfterTheStartAreIgnored: a raw operation and LCD_INIT. -/
theorem test_meets_answers_raw_and_init :
    Instr.isRaw (.push 0xFF#8) = true
      ∧ (∃ t, exec (.push 0xFF#8) (onOpen regs acks) = .next t)
      ∧ ∃ t, exec (.lcdInit 16#8 2#8) (ready acks) = .next t := ⟨rfl, ⟨_, rfl⟩, _, rfl⟩
/-- RegistersAreWrittenByTheirOperationsOnly: CLEAR is none of the operations its clauses except. -/
theorem test_meets_registers : ∃ t, exec .clear (on regs acks) = .next t := ⟨_, rfl⟩
/-- StepOnlyExtendsTheRecord, from a state in which every premise of its clauses holds. -/
theorem test_meets_step_extends :
    ∃ t, step { waiting .hostStart acks with nackSeen := true, refused := true } = .next t := ⟨_, rfl⟩
/-- SetCursorExpandsToItsBracket -/
theorem test_meets_expansion :
    BracketAcked (on regs acks) ∧ ∃ t t1 t2 t3, exec (.setCursor 1#8 2#8) (on regs acks) = .next t
      ∧ exec (.startWait (cfg.devAddr &&& ~~~ cfg.dirMask)) (on regs acks) = .next t1
      ∧ exec (.setCursorRaw 1#8 2#8) t1 = .next t2 ∧ exec .stop t2 = .next t3 :=
  ⟨by decide, _, _, _, _, rfl, rfl, rfl, rfl⟩
/-- ReceiverReadsTheBytesSent, both clauses, and ReceiverReadsTheHandshake: every byte is
acknowledged. -/
theorem test_meets_receiver :
    cfg.pushLoBl = .follow ∧ (∀ j, (fun _ => Ack.ack : Nat → Ack) j = .ack)
      ∧ (on regs acks).bracketOf (.printChar 0x21#8) = some (regs, [.data 0x21#8])
      ∧ (on regs acks).BracketReady ∧ (on regs acks).nackSeen = false
      ∧ (∀ j < 1 + 4 * [CtlByte.data 0x21#8].length, (on regs acks).ack j = .ack)
      ∧ (ready acks).InitReady 16#8 2#8 ∧ (ready acks).nackSeen = false
      ∧ (∀ j < 25, (ready acks).ack j = .ack) :=
  ⟨rfl, fun _ => rfl, rfl, by decide, rfl, by decide, by decide, rfl, by decide⟩
/-- EncodingInvertsOutputDecoding -/
theorem test_meets_output_decoding : decodeOut cfg (.hc 0x48#8) = .ok (.hcSetCgram 1#3) := rfl
/-- DecodingInvertsEncoding, under other numbers than the defaults. -/
theorem test_meets_commands_differ : otherCfg.CommandsDiffer := by
  have key : ∀ (i : Instr) (v : Byte), encode otherCfg i = .out (.hc v) →
      (decodeHc otherCfg v).toOption = some i := by
    intro i v h
    cases i <;> simp only [encode, CodeWord.out.injEq, OutWord.hc.injEq, reduceCtorEq] at h <;> subst h
    case hcClear => decide
    case hcEntryMode a b => revert a b; decide
    case hcDispCtrl a b c => revert a b c; decide
    case hcFuncSet a b c => revert a b c; decide
    case hcSetCgram a => revert a; decide
    case hcSetDdram a => revert a; decide
  exact fun i j v hi hj => Option.some.inj ((key i v hi).symm.trans (key j v hj))
/-- BuiltCommandsAreDecoded, both clauses: `bracketOf` by test_meets_bracket_of. -/
theorem test_meets_built_commands :
    cfg.numbersAdmitted = true ∧ cfg.FlagsAreBits ∧ (on regs20x4 []).ds.Legal (on regs20x4 []).cfg
      ∧ (on regs20x4 []).bracketOf .clear = some (regs20x4, [.command 0x01#8])
      ∧ otherCfg.numbersAdmitted = true ∧ otherCfg.FlagsAreBits
      ∧ 0x12#8 ∈ [otherCfg.cmdEntryModeSet ||| (initRegisters otherCfg 16#8 2#8).entryModeFlags] := by
  decide

/-- A block in the retry loop of a driver operation, with its FF_INIT in the trace. -/
def waitingTraced (after : After) : State :=
  { waiting after acks with trace := [.cfg 100000#32, .s, .a 0x4E#8 .nack, .p] }

/-- StepKeepsTheRegistersLegal and StepKeepsTheBusGrammar, in the middle of a retry loop. -/
theorem test_meets_invariants :
    (waitingTraced (.bracket [.data 0x21#8])).cfg.retryStop = true
      ∧ (waitingTraced (.bracket [.data 0x21#8])).Inv
      ∧ (waitingTraced (.bracket [.data 0x21#8])).BusGrammar
      ∧ ∃ t, step (waitingTraced (.bracket [.data 0x21#8])) = .next t :=
  ⟨rfl, ⟨fun _ => rfl, fun _ => rfl, fun _ => test_meets_legal.1, ⟨rfl, rfl, rfl, rfl, by decide⟩, rfl⟩,
    rfl, _, rfl⟩
/-- The same of LCD_INIT. -/
theorem test_meets_invariants_init :
    (waitingTraced (.handshake 16#8 2#8)).Inv ∧ (waitingTraced (.handshake 16#8 2#8)).BusGrammar :=
  ⟨⟨fun _ => rfl, fun _ => rfl, fun _ => test_meets_legal.1, ⟨rfl, rfl, rfl, rfl, by decide⟩, rfl⟩, rfl⟩
/-- R118: a trace with no FF_INIT before its first start is not in the grammar. -/
theorem test_grammar_needs_ff_init :
    Phase.run .unconfigured [.s, .a 0x4E#8 .ack] = none
      ∧ Phase.run .unconfigured [.cfg 100000#32, .s, .a 0x4E#8 .ack] = some .opened := by decide

/-- The receiver's reading of `INIT2`. -/
def init2Read : List (Option CtlByte) :=
  [some (.command 0x28#8), some (.command 0x0C#8), some (.command 0x01#8), some (.command 0x06#8)]

/-- Program P1's trace after LCD_INIT: `PRINT("Hi")`, `SETCURSOR(1,2)`, `PRINTCHAR('!')`. -/
def p1Rest : List Event :=
  br (dd 0x4D#8 0x49#8 ++ dd 0x8D#8 0x89#8 ++ dd 0x6D#8 0x69#8 ++ dd 0x9D#8 0x99#8)
    ++ br (dd 0xCC#8 0xC8#8 ++ dd 0x0C#8 0x08#8) ++ br (dd 0x2D#8 0x29#8 ++ dd 0x1D#8 0x19#8)

/-- R60 on program P1: after LCD_INIT's commands, data 0x48, 0x69, command 0xC0, data 0x21; nothing
once a byte went unacknowledged (R185). -/
theorem test_receiver_p1 :
    ({ ready [] with trace := .cfg 100000#32 :: init2 ++ p1Rest } : State).received
      = some (init2Read ++ [some (.data 0x48#8), some (.data 0x69#8), some (.command 0xC0#8),
          some (.data 0x21#8)])
    ∧ ({ ready [] with trace := init2, nackSeen := true } : State).received = none := by decide
/-- R60, D30: two bytes that strobe before LCD_INIT are no part of a controller byte, and the four
strobes of a second LCD_INIT, here after an odd nibble, are dropped like those of the first. -/
theorem test_receiver_initialises_again :
    ({ ready [] with
        trace := br [.d 0x3C#8 .ack, .d 0x38#8 .ack] ++ init2 ++ br (dd 0x4D#8 0x49#8) ++ init2 } :
      State).received = some (init2Read ++ init2Read) := by decide
/-- R60 on V30: the four single-nibble commands 3, 3, 3, 2 (program P1). -/
theorem test_receiver_single_nibbles :
    ((strobes (displayBytes 0x4E#8 none init2)).take 4).map Strobe.nibble
      = [0x3#4, 0x3#4, 0x3#4, 0x2#4] := by decide

end Sys2Proof.Tests
end

section
/-! PROOFS. The cases of a step, and the closed form of the operations of the frame formatter that
`Laws/Ops` leaves out: the layer the statements about every step stand on. -/

namespace Sys2Proof.Machine

variable {s t u : State} {i : Instr}

/-! ## The cases of a step (R28) -/

/-- A running operation goes on with one attempt. -/
theorem step_of_startWait {address : Byte} {failed : Nat} {after : After}
    (h : s.seq = .startWait address failed after) : step s = attempt address failed after s := by
  simp [step, h]

/-- An idle block consumes the record it is presented, and runs what it decodes to. -/
theorem step_of_record {record : PortRecord} {rest : List PortRecord} (hs : s.seq = .idle)
    (hp : s.port = record :: rest) (hd : decode record = .ok i) :
    step s = exec i (s.setPort rest) := by
  simp [step, hs, hp, hd]

/-- The sending of a byte that decodes runs from the idle state. -/
theorem step_of_word {word : OutWord} (hs : s.seq = .sending word)
    (hd : decodeOut s.cfg word = .ok i) : step s = exec i (s.setSeq .idle) := by
  simp [step, hs, hd]

/-- What is rejected and yet has a next state is a record with a reserved code. -/
theorem rejected_next {e : DecodeError} (h : rejected e s = .next t) : t = s.refuse .reservedOp := by
  cases e with
  | reservedOp op => cases h; rfl
  | unbuiltCommand b => cases h

/-- Everything a step to a next state can be: an attempt of the running operation, a wait for the
host, or the idle block's answer to what it accepts, an instruction or a reserved code. -/
inductive Stepped (s t : State) : Prop where
  | tried (address : Byte) (failed : Nat) (after : After)
      (hs : s.seq = .startWait address failed after) (ht : attempt address failed after s = .next t)
  | waited (ht : t = s)
  | ran (i : Instr) (rest : List PortRecord)
      (ht : exec i ((s.setPort rest).setSeq .idle) = .next t)
  | reserved (rest : List PortRecord)
      (ht : t = ((s.setPort rest).setSeq .idle).refuse .reservedOp)

theorem step_cases (h : step s = .next t) : Stepped s t := by
  cases hs : s.seq with
  | startWait address failed after =>
    exact .tried address failed after hs (step_of_startWait hs ▸ h)
  | faulted => simp [step, hs] at h
  | sending word =>
    cases hd : decodeOut s.cfg word with
    | ok i => exact .ran i s.port (step_of_word hs hd ▸ h)
    | error e =>
      exact .reserved s.port (rejected_next (e := e) (by rw [← h]; simp [step, hs, hd]; rfl))
  | idle =>
    cases hp : s.port with
    | nil => exact .waited (by simpa [step, hs, hp] using h.symm)
    | cons record rest =>
      have hu : s.setPort rest = (s.setPort rest).setSeq .idle := by rw [← hs]; rfl
      cases hd : decode record with
      | ok i =>
        rw [step_of_record hs hp hd, hu] at h
        exact .ran i rest h
      | error e =>
        have hr : rejected e (s.setPort rest) = .next t := by simpa [step, hs, hp, hd] using h
        exact .reserved rest (rejected_next (hu ▸ hr))

/-! ## Closed forms and frames of the shared operations -/

theorem busStart_eq (address : Byte) (s : State) :
    busStart address s = (s.sent 1 [.s, .a address (s.ack 0)]).setBusOpen true := by
  simp [busStart, State.sent, State.emits, State.noteAnswer, State.drawAcks, State.nackAmong]

theorem busRepStart_eq (address : Byte) (s : State) :
    busRepStart address s = s.sent 1 [.sr, .a address (s.ack 0)] := by
  simp [busRepStart, State.sent, State.emits, State.noteAnswer, State.drawAcks, State.nackAmong]

/-! What follows an acknowledged start, and giving up, leave the bus registers and the port alone. -/

section
variable (after : After) (s : State)

@[simp] theorem opened_bus : (opened after s).bus = s.bus := by
  cases after <;> simp [opened, sendAll_eq, busStop_eq, handshake_eq]
@[simp] theorem opened_ffReady : (opened after s).ffReady = s.ffReady := by
  cases after <;> simp [opened, sendAll_eq, busStop_eq, handshake_eq]
@[simp] theorem opened_seq : (opened after s).seq = s.seq := by
  cases after <;> simp [opened, sendAll_eq, busStop_eq, handshake_eq]
@[simp] theorem opened_port : (opened after s).port = s.port := by
  cases after <;> simp [opened, sendAll_eq, busStop_eq, handshake_eq]

@[simp] theorem abandoned_bus : (abandoned after s).bus = s.bus := by cases after <;> rfl
@[simp] theorem abandoned_ffReady : (abandoned after s).ffReady = s.ffReady := by cases after <;> rfl
@[simp] theorem abandoned_port : (abandoned after s).port = s.port := by cases after <;> rfl

end

/-- An attempt and what follows it leave the bus registers and the presented records. -/
theorem attempt_frame {address : Byte} {failed : Nat} {after : After}
    (h : attempt address failed after s = .next t) :
    t.bus = s.bus ∧ t.ffReady = s.ffReady ∧ t.port = s.port := by
  obtain ⟨-, rfl⟩ | ⟨-, -, rfl⟩ | ⟨-, -, -, rfl⟩ := attempt_cases h <;> simp [retryStop_eq]

/-! ## Traffic on the bus -/

/-- Nothing happened from `s` to `t` but traffic on the bus: the trace and the ghost bit for NACK may
have grown. The bus's owner, the sequencer, the port, the result and the draws are left open. -/
structure Traffic (s t : State) : Prop where
  cfg : t.cfg = s.cfg
  bus : t.bus = s.bus
  ffReady : t.ffReady = s.ffReady
  ds : t.ds = s.ds
  dsValid : t.dsValid = s.dsValid
  refused : t.refused = s.refused
  refusal : t.refusal = s.refusal
  nackSeen : s.nackSeen = true → t.nackSeen = true
  trace : s.trace <+: t.trace
  answers : t.env.answers = s.env.answers
  bytes : t.env.bytes = s.env.bytes

namespace Traffic

theorem trans (h : Traffic s t) (h' : Traffic t u) : Traffic s u :=
  ⟨h'.cfg.trans h.cfg, h'.bus.trans h.bus, h'.ffReady.trans h.ffReady, h'.ds.trans h.ds,
    h'.dsValid.trans h.dsValid, h'.refused.trans h.refused, h'.refusal.trans h.refusal,
    h'.nackSeen ∘ h.nackSeen, h.trace.trans h'.trace, h'.answers.trans h.answers,
    h'.bytes.trans h.bytes⟩

theorem sent (s : State) (n : Nat) (es : List Event) : Traffic s (s.sent n es) :=
  ⟨rfl, rfl, rfl, rfl, rfl, rfl, rfl, fun h => by simp [h], List.prefix_append _ _, rfl, rfl⟩

theorem emits (s : State) (es : List Event) : Traffic s (s.emits es) :=
  State.emits_eq_sent s es ▸ sent s 0 es

theorem drawAcks (s : State) (n : Nat) : Traffic s (s.drawAcks n) :=
  ⟨rfl, rfl, rfl, rfl, rfl, rfl, rfl, id, List.prefix_rfl, rfl, rfl⟩

theorem drawByte (s : State) : Traffic s s.drawByte :=
  ⟨rfl, rfl, rfl, rfl, rfl, rfl, rfl, id, List.prefix_rfl, rfl, rfl⟩

theorem setBusOpen (s : State) (v : Bool) : Traffic s (s.setBusOpen v) :=
  ⟨rfl, rfl, rfl, rfl, rfl, rfl, rfl, id, List.prefix_rfl, rfl, rfl⟩

theorem setSeq (s : State) (q : Seq) : Traffic s (s.setSeq q) :=
  ⟨rfl, rfl, rfl, rfl, rfl, rfl, rfl, id, List.prefix_rfl, rfl, rfl⟩

theorem setPort (s : State) (l : List PortRecord) : Traffic s (s.setPort l) :=
  ⟨rfl, rfl, rfl, rfl, rfl, rfl, rfl, id, List.prefix_rfl, rfl, rfl⟩

theorem setResult (s : State) (r : Result) : Traffic s (s.setResult r) :=
  ⟨rfl, rfl, rfl, rfl, rfl, rfl, rfl, id, List.prefix_rfl, rfl, rfl⟩

theorem attemptSent (s : State) (es : List Event) : Traffic s ((s.drawAcks 1).emits es) :=
  (drawAcks s 1).trans (emits _ es)

theorem sentSetBusOpen (s : State) (n : Nat) (es : List Event) (v : Bool) :
    Traffic s ((s.sent n es).setBusOpen v) :=
  (sent s n es).trans (setBusOpen _ v)

/-- The state in which all that follows an acknowledged opening start begins. -/
theorem acknowledged (s : State) (address : Byte) :
    Traffic s ((((s.drawAcks 1).emits [.s, .a address .ack]).setSeq .idle).setBusOpen true) :=
  (attemptSent s _).trans ((setSeq _ _).trans (setBusOpen _ _))

theorem abandoned (after : After) (s : State) : Traffic s (abandoned after s) := by
  obtain ⟨-, h⟩ | ⟨-, h⟩ := abandoned_cases s after
  · exact h ▸ (setSeq s .idle).trans (setResult _ _)
  · exact h ▸ setSeq s .faulted

/-- What follows an acknowledged opening start is traffic, but for LCD_INIT's. -/
theorem opened {after : After} (s : State) (ha : ∀ columns rows, after ≠ .handshake columns rows) :
    Traffic s (opened after s) := by
  cases after with
  | hostStart => exact setResult s _
  | bracket body => exact opened_bracket_eq s body ▸ sentSetBusOpen s _ _ _
  | handshake columns rows => exact absurd rfl (ha columns rows)

/-- An attempt of START_WAIT or of a bracketed operation is traffic. -/
theorem of_attempt {address : Byte} {failed : Nat} {after : After}
    (ha : ∀ columns rows, after ≠ .handshake columns rows)
    (h : attempt address failed after s = .next t) : Traffic s t := by
  obtain ⟨-, rfl⟩ | ⟨-, -, rfl⟩ | ⟨-, -, -, rfl⟩ := attempt_cases h
  · exact (acknowledged s address).trans (opened _ ha)
  · rw [retryStop_eq]
    exact (attemptSent s _).trans ((emits _ _).trans (setSeq _ _))
  · exact (attemptSent s _).trans (abandoned after _)

end Traffic

/-! ## What an instruction whose checks passed can have done, in five cases -/

/-- The display registers `d` are those of `u` but for the register a bracketed instruction owns
(R35, R154 to R160). -/
def Instr.Writes (i : Instr) (u : State) (d : DisplayState) : Prop :=
  d = u.ds
    ∨ (∃ v, i = .backlight v ∧ d = { u.ds with backlightOn := v })
    ∨ (∃ bit v, (bit = u.cfg.displayOn ∧ i = .display v ∨ bit = u.cfg.cursorOn ∧ i = .cursor v
          ∨ bit = u.cfg.blinkOn ∧ i = .blink v)
        ∧ d = { u.ds with controlFlags := toggleBit u.ds.controlFlags bit v })
    ∨ (∃ bit v, (bit = u.cfg.leftEntry ∧ i = .direction v
          ∨ bit = u.cfg.shiftIncrement ∧ i = .autoshift v)
        ∧ d = { u.ds with entryModeFlags := toggleBit u.ds.entryModeFlags bit v })

/-- `Did` with the seven kinds of traffic without a retrying start taken as one. -/
inductive Effect (i : Instr) (u t : State) : Prop where
  | configured (clockHz : Hz) (hi : i = .ffInit clockHz) (ht : t = busConfigure clockHz u)
  | traffic (hb : u.busOpen = true ∨ ∀ hz, i ≠ .ffInit hz) (ht : Traffic u t)
      (hs : t.seq = u.seq)
  | waited (address : Byte) (hr : u.ffReady = true) (hb : u.busOpen = false)
      (ht : attempt address 0 .hostStart u = .next t)
  | initialised (columns rows : Byte) (hi : i = .lcdInit columns rows)
      (hg : geometryOk columns rows = true) (hr : u.ffReady = true) (hb : u.busOpen = false)
      (ht : attempt (deviceAddress u.cfg) 0 (.handshake columns rows)
        ((u.setDs { u.ds with backlightOn := true }).wait Config.tPower) = .next t)
  | bracketed (body : List CtlByte) (d : DisplayState) (hr : u.ffReady = true)
      (hv : u.dsValid = true) (hb : u.busOpen = false) (hd : Instr.Writes i u d)
      (ht : attempt (deviceAddress u.cfg) 0 (.bracket body) (u.setDs d) = .next t)

theorem Did.effect (h : Did i u t) : Effect i u t := by
  cases h with
  | configured hz hi ht => exact .configured hz hi ht
  | started address r hi hb ht =>
    rw [ht, busStart_eq]
    refine .traffic (.inr fun hz hff => ?_)
      ((Traffic.sentSetBusOpen u _ _ _).trans (Traffic.setResult _ r)) rfl
    obtain ⟨_, rfl⟩ | ⟨_, _, rfl⟩ := hi <;> cases hff
  | restarted address r hb ht =>
    rw [ht, busRepStart_eq]
    exact .traffic (.inl hb) ((Traffic.sent u _ _).trans (Traffic.setResult _ r)) rfl
  | hasRead ack r hb ht =>
    subst ht
    exact .traffic (.inl hb) ((Traffic.drawByte u).trans
      ((Traffic.emits _ _).trans (Traffic.setResult _ r))) rfl
  | stopped hi hb ht =>
    rw [ht, busStop_eq]
    exact .traffic (.inl hb) (Traffic.sentSetBusOpen u _ _ _) rfl
  | wrote b r hb ht =>
    rw [ht, busWrite_eq]
    exact .traffic (.inl hb) ((Traffic.sent u _ _).trans (Traffic.setResult _ r)) rfl
  | pushed x hb ht =>
    rw [ht, push_eq]
    exact .traffic (.inl hb) (Traffic.sent u _ _) rfl
  | sent body hb ht =>
    rw [ht, sendAll_eq]
    exact .traffic (.inl hb) (Traffic.sent u _ _) rfl
  | waited address hi hr hb ht => exact .waited address hr hb ht
  | initialised columns rows hi hg hr hb ht => exact .initialised columns rows hi hg hr hb ht
  | bracketed body d hi hr hv hb hd ht => exact .bracketed body d hr hv hb hd ht

end Sys2Proof.Machine
end

section
/-! PROOFS. The register invariant (R22 to R33): the display registers an instruction writes stay
legal, an attempt of the retrying start keeps the invariant, and so does every step. -/

namespace Sys2Proof.Machine

variable {s t u : State} {i : Instr}

/-! ## The flag registers under their masks -/

/-- Bits of a mask are not seen outside it. -/
theorem or_and_not_of_carries {mask bit : Byte} (h : carries mask bit = true) (reg : Byte) :
    (reg ||| bit) &&& ~~~ mask = reg &&& ~~~ mask := by
  rw [carries, beq_iff_eq] at h
  rw [← h]
  ext k hk
  simp only [BitVec.getElem_and, BitVec.getElem_or, BitVec.getElem_not]
  cases reg[k] <;> cases mask[k] <;> simp

/-- A toggle moves its own bit only (R154). -/
theorem toggleBit_and_not {mask bit : Byte} (h : carries mask bit = true) (reg : Byte) (v : Bool) :
    toggleBit reg bit v &&& ~~~ mask = reg &&& ~~~ mask := by
  have hclear : (reg &&& ~~~ bit) &&& ~~~ mask = reg &&& ~~~ mask := by
    rw [BitVec.and_assoc, ← BitVec.not_or, ← or_of_carries h, BitVec.or_comm bit,
      BitVec.or_assoc, BitVec.or_self]
  cases v with
  | false => exact hclear
  | true => exact (or_and_not_of_carries h _).trans hclear

theorem carries_self (mask : Byte) : carries mask mask = true := by simp [carries]

theorem carries_or_left {v mask : Byte} (w : Byte) (h : carries v mask = true) :
    carries (v ||| w) mask = true := by
  rw [← or_of_carries h, BitVec.or_assoc, BitVec.or_comm mask, ← BitVec.or_assoc]
  exact carries_or _ mask

/-! ## The display registers an instruction writes before its opening start (R35) -/

theorem Instr.Writes.legal {d : DisplayState} (h : Instr.Writes i u d) (hl : u.ds.Legal u.cfg) :
    d.Legal u.cfg := by
  obtain ⟨hcol, hline, hline4, hoff, hfun, hctl, hent⟩ := hl
  obtain rfl | ⟨v, -, rfl⟩ | ⟨bit, v, hbit, rfl⟩ | ⟨bit, v, hbit, rfl⟩ := h
  · exact ⟨hcol, hline, hline4, hoff, hfun, hctl, hent⟩
  · exact ⟨hcol, hline, hline4, hoff, hfun, hctl, hent⟩
  · have hm : carries (u.cfg.displayOn ||| u.cfg.cursorOn ||| u.cfg.blinkOn) bit = true := by
      obtain ⟨rfl, -⟩ | ⟨rfl, -⟩ | ⟨rfl, -⟩ := hbit
      · exact carries_or_left _ (carries_or_left _ (carries_self _))
      · exact carries_or_left _ (carries_or _ _)
      · exact carries_or _ _
    exact ⟨hcol, hline, hline4, hoff, hfun, (toggleBit_and_not hm _ v).trans hctl, hent⟩
  · have hm : carries (u.cfg.leftEntry ||| u.cfg.shiftIncrement) bit = true := by
      obtain ⟨rfl, -⟩ | ⟨rfl, -⟩ := hbit
      · exact carries_or_left _ (carries_self _)
      · exact carries_or _ _
    exact ⟨hcol, hline, hline4, hoff, hfun, hctl, (toggleBit_and_not hm _ v).trans hent⟩

/-- LCD_INIT's registers are legal for a geometry it accepts, whatever the backlight (R140). -/
theorem initRegisters_legal (p : Params) {columns rows : Byte} (bl : Bool)
    (hc : 1 ≤ columns.toNat) (hr : 1 ≤ rows.toNat) (hr4 : rows.toNat ≤ 4) :
    ({ initRegisters p columns rows with backlightOn := bl } : DisplayState).Legal p := by
  have hctl : p.displayOn &&& ~~~ (p.displayOn ||| p.cursorOn ||| p.blinkOn) = 0x00#8 := by
    have h := or_and_not_of_carries
      (carries_or_left p.blinkOn (carries_or_left p.cursorOn (carries_self p.displayOn))) 0x00#8
    simpa using h
  have hent : (p.leftEntry ||| p.shiftDecrement) &&& ~~~ (p.leftEntry ||| p.shiftIncrement) =
      p.shiftDecrement &&& ~~~ (p.leftEntry ||| p.shiftIncrement) := by
    rw [BitVec.or_comm p.leftEntry p.shiftDecrement]
    exact or_and_not_of_carries (carries_or_left _ (carries_self _)) _
  exact ⟨hc, hr, hr4, rfl, rfl, hctl, hent⟩

theorem geometryOk_iff (columns rows : Byte) :
    geometryOk columns rows = true ↔
      1 ≤ rows.toNat ∧ rows.toNat ≤ 4 ∧ 1 ≤ columns.toNat := by
  simp only [geometryOk, Bool.and_eq_true, decide_eq_true_eq, BitVec.le_def, and_assoc]
  exact Iff.rfl

/-! ## The invariant without the sequencer -/

/-- The clauses of the invariant that do not read the sequencer. -/
structure State.RegistersLegal (s : State) : Prop where
  ready_of_open : s.busOpen = true → s.ffReady = true
  ready_of_valid : s.dsValid = true → s.ffReady = true
  legal : s.dsValid = true → s.ds.Legal s.cfg
  refusal : s.refused = s.refusal.isSome

theorem State.inv_iff : s.Inv ↔ s.RegistersLegal ∧ s.SeqLegal :=
  ⟨fun ⟨ho, hv, hl, hs, hr⟩ => ⟨⟨ho, hv, hl, hr⟩, hs⟩,
    fun ⟨⟨ho, hv, hl, hr⟩, hs⟩ => ⟨ho, hv, hl, hs, hr⟩⟩

theorem State.RegistersLegal.inv_of_idle (h : s.RegistersLegal) (hs : s.seq = .idle) : s.Inv :=
  State.inv_iff.2 ⟨h, by simp [State.SeqLegal, hs]⟩

/-- Traffic leaves the registers legal; it may open the bus only where `ffReady` holds. -/
theorem State.RegistersLegal.of_traffic (h : s.RegistersLegal) (ht : Traffic s t)
    (hb : t.busOpen = true → s.ffReady = true) : t.RegistersLegal :=
  ⟨by rwa [ht.ffReady], by rw [ht.ffReady, ht.dsValid]; exact h.ready_of_valid,
    by rw [ht.dsValid, ht.ds, ht.cfg]; exact h.legal, by rw [ht.refused, ht.refusal]; exact h.refusal⟩

/-! ## The retrying start keeps the invariant -/

/-- What follows the acknowledged start leaves the registers legal. -/
theorem opened_registersLegal {after : After} {address : Byte} (h : s.RegistersLegal)
    (hff : s.ffReady = true) (ha : after.Legal s address) : (opened after s).RegistersLegal := by
  cases after with
  | hostStart => exact ⟨h.ready_of_open, h.ready_of_valid, h.legal, h.refusal⟩
  | bracket body =>
    rw [opened_bracket_eq]
    exact ⟨fun _ => hff, h.ready_of_valid, h.legal, h.refusal⟩
  | handshake columns rows =>
    obtain ⟨-, -, hc, hr, hr4⟩ := ha
    have ho : opened (.handshake columns rows) s = handshake columns rows s := rfl
    rw [ho, handshake_eq]
    exact ⟨fun _ => hff, fun _ => hff, fun _ => initRegisters_legal _ _ hc hr hr4, h.refusal⟩

/-- Attempts run out under a finite `MAX_ATTEMPTS` only. -/
theorem maxAttempts_isSome_of_exhausted {p : Params} {n : Nat} (h : exhausted p n = true) :
    p.maxAttempts.isSome = true := by
  cases hm : p.maxAttempts with
  | none => simp [exhausted, hm] at h
  | some m => rfl

/-- One attempt of a retrying start the checks let through keeps the invariant, with the loop's
position where the start is not acknowledged. -/
theorem attempt_keeps_inv {address : Byte} {failed : Nat} {after : After} (h : s.RegistersLegal)
    (hff : s.ffReady = true) (hb : s.busOpen = false) (ha : after.Legal s address)
    (ht : attempt address failed after s = .next t) : t.Inv := by
  obtain ⟨-, rfl⟩ | ⟨-, hx, rfl⟩ | ⟨-, hx, hstop, rfl⟩ := attempt_cases ht
  · have ho := h.of_traffic (Traffic.acknowledged s address) fun _ => hff
    refine (opened_registersLegal (address := address) ho hff ?_).inv_of_idle
      ((opened_seq after _).trans rfl)
    cases after <;> exact ha
  · rw [retryStop_eq]
    refine State.inv_iff.2 ⟨h.of_traffic ((Traffic.attemptSent s _).trans
      ((Traffic.emits _ _).trans (Traffic.setSeq _ _))) fun _ => hff, hff, hb, hx, ?_⟩
    cases after <;> exact ha
  · have hl := h.of_traffic ((Traffic.attemptSent s [.s, .a address .nack, .p]).trans
      (Traffic.abandoned after _)) fun _ => hff
    cases after with
    | hostStart => exact hl.inv_of_idle rfl
    | bracket | handshake =>
      exact State.inv_iff.2 ⟨hl, hb, maxAttempts_isSome_of_exhausted hx, hstop⟩

/-! ## Every step keeps the invariant -/

/-- FF_INIT apart, an instruction whose checks pass finds the bus configured (R190). -/
theorem ready_of_pass (h : firstFailing (checksOf s i) = none) (hi : ∀ hz, i ≠ .ffInit hz) :
    s.ffReady = true := by
  have hmem : readyCheck s ∈ checksOf s i := by
    cases i with
    | ffInit hz => exact absurd rfl (hi hz)
    | _ => simp [checksOf, startChecks, openChecks, rawChecks, bracketChecks]
  exact (firstFailing_eq_none _).1 h _ hmem

/-- An instruction that is not refused keeps the invariant. -/
theorem Effect.keeps_inv (h : Effect i u t) (hs : u.seq = .idle) (hu : u.RegistersLegal)
    (hready : (∀ hz, i ≠ .ffInit hz) → u.ffReady = true) : t.Inv := by
  cases h with
  | configured hz hi ht =>
    subst ht
    exact State.RegistersLegal.inv_of_idle
      ⟨fun _ => rfl, fun _ => rfl, hu.legal, hu.refusal⟩ hs
  | traffic hb ht hseq =>
    have hff : u.ffReady = true := hb.elim hu.ready_of_open hready
    exact (hu.of_traffic ht fun _ => hff).inv_of_idle (hseq.trans hs)
  | waited address hr hb ht => exact attempt_keeps_inv hu hr hb trivial ht
  | initialised columns rows hi hg hr hb ht =>
    obtain ⟨h1, h4, hc⟩ := (geometryOk_iff columns rows).1 hg
    have hl : State.RegistersLegal
        ((u.setDs { u.ds with backlightOn := true }).wait Config.tPower) :=
      ⟨hu.ready_of_open, hu.ready_of_valid, hu.legal, hu.refusal⟩
    have ha : After.Legal ((u.setDs { u.ds with backlightOn := true }).wait Config.tPower)
        (deviceAddress u.cfg) (.handshake columns rows) := ⟨rfl, rfl, hc, h1, h4⟩
    exact attempt_keeps_inv hl hr hb ha ht
  | bracketed body d hr hv hb hd ht =>
    have hl : (u.setDs d).RegistersLegal :=
      ⟨hu.ready_of_open, hu.ready_of_valid, fun _ => hd.legal (hu.legal hv), hu.refusal⟩
    have ha : After.Legal (u.setDs d) (deviceAddress u.cfg) (.bracket body) := ⟨hv, rfl⟩
    exact attempt_keeps_inv hl hr hb ha ht

theorem refuse_keeps_inv (r : Reason) (hs : s.seq = .idle) (hr : s.RegistersLegal) :
    (s.refuse r).Inv :=
  State.RegistersLegal.inv_of_idle ⟨hr.ready_of_open, hr.ready_of_valid, hr.legal, rfl⟩ hs

theorem exec_keeps_inv (hs : s.seq = .idle) (hr : s.RegistersLegal) (h : exec i s = .next t) :
    t.Inv := by
  obtain ⟨r, -, rfl⟩ | ⟨hc, hd⟩ := exec_cases h
  · exact refuse_keeps_inv r hs hr
  · exact hd.effect.keeps_inv hs (hr.of_traffic (Traffic.setResult s _) hr.ready_of_open)
      (ready_of_pass hc)

/-- Settles O57: by the cases of a step; the checks an instruction passed are what the clause of the
retry loop asks for. -/
theorem stepKeepsTheRegistersLegal : Obligations.StepKeepsTheRegistersLegal := by
  intro s t hinv h
  obtain ⟨hr, hq⟩ := State.inv_iff.1 hinv
  have hidle (rest : List PortRecord) : ((s.setPort rest).setSeq .idle).RegistersLegal :=
    hr.of_traffic ((Traffic.setPort s rest).trans (Traffic.setSeq _ _)) hr.ready_of_open
  cases step_cases h with
  | tried address failed after hs ht =>
    simp only [State.SeqLegal, hs] at hq
    obtain ⟨hff, hb, -, ha⟩ := hq
    exact attempt_keeps_inv hr hff hb ha ht
  | waited ht => exact ht ▸ hinv
  | ran i rest ht => exact exec_keeps_inv rfl (hidle rest) ht
  | reserved rest ht => exact ht ▸ refuse_keeps_inv _ rfl (hidle rest)

end Sys2Proof.Machine
end

section
/-! PROOFS. Which registers an instruction writes (R35), what no step takes back (R22, R33, R38, R10),
the block's independence of the port while it is busy (R28, R216), and reset (R39). -/

namespace Sys2Proof.Machine

variable {s t u : State} {i : Instr}

/-! ## Registers (R35) -/

/-- No bracketed instruction writes the geometry or `functionFlags`. -/
theorem Instr.Writes.geometry {d : DisplayState} (h : Instr.Writes i u d) :
    d.columnCount = u.ds.columnCount ∧ d.lineCount = u.ds.lineCount
      ∧ d.rowOffsets = u.ds.rowOffsets ∧ d.functionFlags = u.ds.functionFlags := by
  obtain rfl | ⟨_, -, rfl⟩ | ⟨_, _, -, rfl⟩ | ⟨_, _, -, rfl⟩ := h <;> exact ⟨rfl, rfl, rfl, rfl⟩

theorem Instr.Writes.controlFlags {d : DisplayState} (h : Instr.Writes i u d)
    (hi : ∀ v, i ≠ .display v ∧ i ≠ .cursor v ∧ i ≠ .blink v) :
    d.controlFlags = u.ds.controlFlags := by
  obtain rfl | ⟨_, -, rfl⟩ | ⟨_, v, hbit, -⟩ | ⟨_, _, -, rfl⟩ := h
  · rfl
  · rfl
  · obtain ⟨hd, hc, hb⟩ := hi v
    obtain ⟨-, h⟩ | ⟨-, h⟩ | ⟨-, h⟩ := hbit
    exacts [absurd h hd, absurd h hc, absurd h hb]
  · rfl

theorem Instr.Writes.entryModeFlags {d : DisplayState} (h : Instr.Writes i u d)
    (hi : ∀ v, i ≠ .direction v ∧ i ≠ .autoshift v) :
    d.entryModeFlags = u.ds.entryModeFlags := by
  obtain rfl | ⟨_, -, rfl⟩ | ⟨_, _, -, rfl⟩ | ⟨_, v, hbit, -⟩ := h
  · rfl
  · rfl
  · rfl
  · obtain ⟨hd, ha⟩ := hi v
    obtain ⟨-, h⟩ | ⟨-, h⟩ := hbit
    exacts [absurd h hd, absurd h ha]

theorem Instr.Writes.backlightOn {d : DisplayState} (h : Instr.Writes i u d)
    (hi : ∀ v, i ≠ .backlight v) : d.backlightOn = u.ds.backlightOn := by
  obtain rfl | ⟨v, h, -⟩ | ⟨_, _, -, rfl⟩ | ⟨_, _, -, rfl⟩ := h
  exacts [rfl, absurd h (hi v), rfl, rfl]

/-- LCD_INIT apart, an instruction writes the register it owns, and no other of the display's. -/
theorem exec_writes (h : exec i s = .next t) (hi : ∀ c r, i ≠ .lcdInit c r) :
    t.dsValid = s.dsValid ∧ Instr.Writes i s t.ds := by
  obtain ⟨r, -, rfl⟩ | ⟨-, hd⟩ := exec_cases h
  · exact ⟨rfl, .inl rfl⟩
  · cases hd.effect with
    | configured hz hf ht => exact ht ▸ ⟨rfl, .inl rfl⟩
    | traffic hb ht hs => exact ⟨ht.dsValid, .inl ht.ds⟩
    | waited address hr hb ht =>
      have hw := Traffic.of_attempt (by simp) ht
      exact ⟨hw.dsValid, .inl hw.ds⟩
    | initialised columns rows hf => exact absurd hf (hi columns rows)
    | bracketed body d hr hv hb hw ht =>
      have ht := Traffic.of_attempt (by simp) ht
      exact ⟨ht.dsValid, ht.ds ▸ hw⟩

/-- FF_INIT apart, an instruction leaves the bus registers. -/
theorem exec_keeps_bus (h : exec i s = .next t) (hi : ∀ hz, i ≠ .ffInit hz) :
    t.bus = s.bus ∧ t.ffReady = s.ffReady := by
  obtain ⟨r, -, rfl⟩ | ⟨-, hd⟩ := exec_cases h
  · exact ⟨rfl, rfl⟩
  · cases hd.effect with
    | configured hz hf => exact absurd hf (hi hz)
    | traffic hb ht hs => exact ⟨ht.bus, ht.ffReady⟩
    | waited _ _ _ ht | initialised _ _ _ _ _ _ ht | bracketed _ _ _ _ _ _ ht =>
      obtain ⟨hbus, hff, -⟩ := attempt_frame ht
      exact ⟨hbus, hff⟩

/-- Settles O47: by what an instruction writes before its opening start. -/
theorem registersAreWrittenByTheirOperationsOnly :
    Obligations.RegistersAreWrittenByTheirOperationsOnly := by
  intro i s t h
  refine ⟨fun hi => ?_, fun hi => ?_, fun hi => ?_, fun hi => ?_, exec_keeps_bus h⟩ <;>
    obtain ⟨hv, hw⟩ := exec_writes h hi
  · obtain ⟨hcol, hline, hoff, hfun⟩ := hw.geometry
    exact ⟨hcol, hline, hoff, hfun, hv⟩
  · exact hw.controlFlags
  · exact hw.entryModeFlags
  · exact hw.backlightOn

/-! ## What no step takes back -/

/-- The record of `s` stands in `t`: the flags and ghost bits that were set are, the trace has grown
at its end, the configuration and the answers given are the same. -/
structure State.ExtendedBy (s t : State) : Prop where
  ffReady : s.ffReady = true → t.ffReady = true
  dsValid : s.dsValid = true → t.dsValid = true
  nackSeen : s.nackSeen = true → t.nackSeen = true
  refused : s.refused = true → t.refused = true
  trace : s.trace <+: t.trace
  cfg : t.cfg = s.cfg
  answers : t.env.answers = s.env.answers
  bytes : t.env.bytes = s.env.bytes

namespace State.ExtendedBy

theorem trans (h : s.ExtendedBy t) (h' : t.ExtendedBy u) : s.ExtendedBy u :=
  ⟨h'.ffReady ∘ h.ffReady, h'.dsValid ∘ h.dsValid, h'.nackSeen ∘ h.nackSeen,
    h'.refused ∘ h.refused, h.trace.trans h'.trace, h'.cfg.trans h.cfg, h'.answers.trans h.answers,
    h'.bytes.trans h.bytes⟩

theorem of_traffic (h : Traffic s t) : s.ExtendedBy t :=
  ⟨fun k => h.ffReady.trans k, fun k => h.dsValid.trans k, h.nackSeen, fun k => h.refused.trans k,
    h.trace, h.cfg, h.answers, h.bytes⟩

theorem refl (s : State) : s.ExtendedBy s :=
  ⟨id, id, id, id, List.prefix_rfl, rfl, rfl, rfl⟩

theorem setDs (s : State) (d : DisplayState) : s.ExtendedBy (s.setDs d) :=
  ⟨id, id, id, id, List.prefix_rfl, rfl, rfl, rfl⟩

theorem setDsValid (s : State) : s.ExtendedBy (s.setDsValid true) :=
  ⟨id, fun _ => rfl, id, id, List.prefix_rfl, rfl, rfl, rfl⟩

theorem refuse (s : State) (r : Reason) : s.ExtendedBy (s.refuse r) :=
  ⟨id, id, id, fun _ => rfl, List.prefix_rfl, rfl, rfl, rfl⟩

theorem busConfigure (s : State) (clockHz : Hz) : s.ExtendedBy (busConfigure clockHz s) :=
  ⟨fun _ => rfl, id, id, id, List.prefix_append _ _, rfl, rfl, rfl⟩

theorem of_handshake (s : State) (columns rows : Byte) :
    s.ExtendedBy (handshake columns rows s) := by
  rw [handshake_eq]
  exact (of_traffic (Traffic.sent s _ _)).trans <| (setDs _ _).trans <|
    (of_traffic (Traffic.setBusOpen _ _)).trans <| setDsValid _

theorem of_attempt {address : Byte} {failed : Nat} {after : After}
    (h : attempt address failed after s = .next t) : s.ExtendedBy t := by
  cases after with
  | hostStart | bracket => exact of_traffic (Traffic.of_attempt (by simp) h)
  | handshake columns rows =>
    obtain ⟨-, rfl⟩ | ⟨-, -, rfl⟩ | ⟨-, -, -, rfl⟩ := attempt_cases h
    · exact (of_traffic (Traffic.acknowledged s address)).trans (of_handshake _ columns rows)
    · rw [retryStop_eq]
      exact of_traffic ((Traffic.attemptSent s _).trans ((Traffic.emits _ _).trans
        (Traffic.setSeq _ _)))
    · exact of_traffic ((Traffic.attemptSent s _).trans (Traffic.abandoned _ _))

theorem of_exec (h : exec i s = .next t) : s.ExtendedBy t := by
  obtain ⟨r, -, rfl⟩ | ⟨-, hd⟩ := exec_cases h
  · exact refuse s r
  · refine (of_traffic (Traffic.setResult s .notValid)).trans ?_
    cases hd.effect with
    | configured hz hi ht => exact ht ▸ busConfigure _ hz
    | traffic hb ht hs => exact of_traffic ht
    | waited address hr hb ht => exact of_attempt ht
    | initialised columns rows hi hg hr hb ht =>
      exact (setDs _ _).trans ((of_traffic (Traffic.emits _ _)).trans (of_attempt ht))
    | bracketed body d hr hv hb hw ht => exact (setDs _ d).trans (of_attempt ht)

theorem of_step (h : step s = .next t) : s.ExtendedBy t := by
  have hidle (rest : List PortRecord) : s.ExtendedBy ((s.setPort rest).setSeq .idle) :=
    of_traffic ((Traffic.setPort s rest).trans (Traffic.setSeq _ _))
  cases step_cases h with
  | tried address failed after hs ht => exact of_attempt ht
  | waited ht => exact ht ▸ refl s
  | ran i rest ht => exact (hidle rest).trans (of_exec ht)
  | reserved rest ht => exact ht ▸ (hidle rest).trans (refuse _ _)

end State.ExtendedBy

/-- Settles O48: by the cases of a step. -/
theorem stepOnlyExtendsTheRecord : Obligations.StepOnlyExtendsTheRecord := by
  intro s t h
  obtain ⟨hff, hv, hn, hr, ⟨events, htr⟩, hcfg, hans, hbytes⟩ := State.ExtendedBy.of_step h
  exact ⟨hff, hv, hn, hr, ⟨events, htr.symm⟩, hcfg, hans, hbytes⟩

/-! ## The port (R28, R91, R216) -/

/-- Settles O3: the two equations of a step that finds an instruction. -/
theorem stepRunsTheDecodedInstruction : Obligations.StepRunsTheDecodedInstruction :=
  ⟨fun _ _ _ _ hs hp hd => step_of_record hs hp hd, fun _ _ _ hs hd => step_of_word hs hd⟩

/-- What follows an acknowledged start neither reads nor writes the port. -/
theorem opened_setPort (after : After) (s : State) (l : List PortRecord) :
    opened after (s.setPort l) = (opened after s).setPort l := by
  cases after with
  | hostStart => rfl
  | bracket body =>
    rw [opened_bracket_eq, opened_bracket_eq]
    rfl
  | handshake columns rows =>
    simp only [opened]
    rw [handshake_eq, handshake_eq]
    rfl

theorem abandoned_setPort (after : After) (s : State) (l : List PortRecord) :
    abandoned after (s.setPort l) = (abandoned after s).setPort l := by
  cases after <;> rfl

/-- An attempt does not read the port. -/
theorem attempt_setPort {address : Byte} {failed : Nat} {after : After} (l : List PortRecord)
    (h : attempt address failed after s = .next t) :
    attempt address failed after (s.setPort l) = .next (t.setPort l) := by
  obtain ⟨hk, rfl⟩ | ⟨hk, hx, rfl⟩ | ⟨hk, hx, hr, rfl⟩ := attempt_cases h
  · rw [attempt_of_ack (s.setPort l) _ _ _ hk, ← opened_setPort]
    rfl
  · rw [attempt_of_nack_left (s.setPort l) _ _ _ hk hx, retryStop_eq, State.emits_emits]
    rfl
  · rw [attempt_of_nack_last (s.setPort l) _ _ _ hk hx hr, ← abandoned_setPort]
    rfl

/-- Settles O6: a step in the retry loop is an attempt, which leaves the port unread. -/
theorem busyBlockAcceptsNothing : Obligations.BusyBlockAcceptsNothing := by
  intro s address failed after presented t hs h
  rw [step_of_startWait hs] at h
  obtain ⟨-, -, hp⟩ := attempt_frame h
  exact ⟨hp, (step_of_startWait (s := s.setPort presented) hs).trans (attempt_setPort presented h)⟩

/-! ## Reset (R39, R211) -/

/-- Settles O1: the table of R39, read off the reset state. -/
theorem resetValuesOfTheSpec : Obligations.ResetValuesOfTheSpec :=
  ⟨rfl, rfl, rfl, rfl, rfl, rfl, rfl⟩

/-- No flag is set at reset, so no register has to be legal yet. -/
theorem reset_registersLegal : State.reset.RegistersLegal :=
  ⟨fun h => Bool.noConfusion h, fun h => Bool.noConfusion h, fun h => Bool.noConfusion h, rfl⟩

/-- Settles O56: nothing is running, set or emitted at reset. -/
theorem resetMeetsTheInvariants : Obligations.ResetMeetsTheInvariants :=
  ⟨reset_registersLegal.inv_of_idle rfl, rfl⟩

end Sys2Proof.Machine
end

section
/-! PROOFS. A bracketed operation acknowledged at once, and what the answers leave of the bytes sent:
a toggle repeated (R57). -/

namespace Sys2Proof.Machine

variable {s t : State} {i : Instr} {d : DisplayState} {body : List CtlByte}

/-- A bracketed operation whose checks pass and whose opening start is acknowledged at once. -/
theorem exec_bracketOf_of_ack (hk : s.ack 0 = .ack) (h : s.bracketOf i = some (d, body))
    (hr : s.BracketReady) :
    exec i s = .next
      (((s.after (bracketEvents s.cfg d.backlightOn s.ack body) 1 (1 + 4 * body.length)
        .notValid).setDs d).setSeq .idle) := by
  obtain ⟨-, -, hb⟩ := id hr
  rw [exec_of_bracketOf h hr, openDisplay_bracket_of_ack body d hb hk]
  rfl

/-! ## The bytes sent, whatever is answered (R183) -/

theorem pushEvents_map_sent (p : Params) (bl : Bool) (x : Byte) (k1 k2 k1' k2' : Ack) :
    (pushEvents p bl x k1 k2).map Event.sent = (pushEvents p bl x k1' k2').map Event.sent := rfl

theorem bytesEvents_map_sent (p : Params) (bl : Bool) (k k' : Nat → Ack) (n : Nat)
    (body : List CtlByte) :
    (bytesEvents p bl k n body).map Event.sent = (bytesEvents p bl k' n body).map Event.sent := by
  induction body generalizing n with
  | nil => rfl
  | cons b rest ih =>
    simp only [bytesEvents, List.map_append, ih]
    rfl

theorem bracketEvents_map_sent (p : Params) (bl : Bool) (k k' : Nat → Ack) (body : List CtlByte) :
    (bracketEvents p bl k body).map Event.sent = (bracketEvents p bl k' body).map Event.sent := by
  simp only [bracketEvents, List.map_append, bytesEvents_map_sent p bl k k']

/-! ## A toggle repeated (R57) -/

/-- Writing a flag a second time changes nothing. -/
theorem flagWritten_flagWritten (reg bit : Byte) (v : Bool) :
    flagWritten (flagWritten reg bit v) bit v = flagWritten reg bit v := by
  cases v with
  | false => simp [flagWritten, BitVec.and_assoc]
  | true =>
    ext k hk
    simp only [flagWritten, if_true, BitVec.getElem_or, BitVec.getElem_and, BitVec.getElem_not]
    cases reg[k] <;> cases bit[k] <;> rfl

/-- A toggle or BACKLIGHT has registers to leave and bytes to send, and the same ones where the
registers are already those it leaves. -/
theorem bracketOf_toggle {v : Bool}
    (hi : i ∈ [Instr.display v, .cursor v, .blink v, .direction v, .autoshift v, .backlight v]) :
    ∃ d body, s.bracketOf i = some (d, body)
      ∧ ∀ t : State, t.cfg = s.cfg → t.ds = d → t.bracketOf i = some (d, body) := by
  simp only [List.mem_cons, List.not_mem_nil, or_false] at hi
  obtain rfl | rfl | rfl | rfl | rfl | rfl := hi <;>
    exact ⟨_, _, rfl, fun t hc hd => by simp [State.bracketOf, hc, hd, flagWritten_flagWritten]⟩

/-- Settles O29: the registers a toggle leaves are those it would leave again, and the events of a
bracket, answers aside, are fixed by the backlight and the bytes. -/
theorem repeatedToggleIsIdempotent : Obligations.RepeatedToggleIsIdempotent := by
  intro v i s t u hi hr hs ht h h'
  obtain ⟨d, body, hd, hagain⟩ := bracketOf_toggle (s := s) hi
  rw [exec_bracketOf_of_ack hs hd hr] at h
  cases h
  rw [exec_bracketOf_of_ack ht (hagain _ rfl rfl) hr] at h'
  cases h'
  exact ⟨rfl, _, _, rfl, rfl, bracketEvents_map_sent _ _ _ _ _⟩

end Sys2Proof.Machine
end

section
/-! PROOFS. The receiver view (R60) of what the block sends: a push is one strobe, a controller byte
two, and LCD_INIT four strobes and four commands (R140). -/

namespace Sys2Proof.Machine

variable {s t : State}

/-! ## The data bytes of a transaction to the display -/

theorem displayBytes_push {p : Params} (h : p.pushLoBl = .follow) (da : Byte) (bl : Bool) (x : Byte)
    (k1 k2 : Ack) (rest : List Event) :
    displayBytes da (some da) (pushEvents p bl x k1 k2 ++ rest) =
      pushHigh bl x :: pushLow .follow bl x :: displayBytes da (some da) rest := by
  simp [pushEvents, h, displayBytes, pushHigh, pushLow, keptLines, blLine]

/-! ## Strobes -/

/-- No strobe begins at a byte with E low. -/
theorem strobes_cons_of_low {y : Byte} (h : y.getLsbD 2 = false) (rest : List Byte) :
    strobes (y :: rest) = strobes rest := by
  cases rest with
  | nil => rfl
  | cons z rest => rw [strobes, isStrobe, h]; rfl

/-- A strobe, and no other at its second byte, whose E is low. -/
theorem strobes_cons_of_isStrobe {x y : Byte} (h : isStrobe x y = true) (rest : List Byte) :
    strobes (x :: y :: rest) = strobeOf y :: strobes rest := by
  have hy : y.getLsbD 2 = false := by
    simp only [isStrobe, Bool.and_eq_true, Bool.not_eq_true'] at h
    obtain ⟨⟨-, hy⟩, -⟩ := h
    exact hy
  rw [strobes, if_pos h, strobes_cons_of_low hy]

/-- With BL as in the first byte, the two bytes of a push are a strobe (R60, R82). -/
theorem isStrobe_push (bl : Bool) (x : Byte) :
    isStrobe (pushHigh bl x) (pushLow .follow bl x) = true := by
  revert x; cases bl <;> decide

/-- It delivers the lines the push copies. -/
theorem strobeOf_pushLow (bl : Bool) (x : Byte) : strobeOf (pushLow .follow bl x) = strobeOf x := by
  revert x; cases bl <;> decide

theorem strobes_push {p : Params} (h : p.pushLoBl = .follow) (da : Byte) (bl : Bool) (x : Byte)
    (k1 k2 : Ack) (rest : List Event) :
    strobes (displayBytes da (some da) (pushEvents p bl x k1 k2 ++ rest)) =
      strobeOf x :: strobes (displayBytes da (some da) rest) := by
  rw [displayBytes_push h, strobes_cons_of_isStrobe (isStrobe_push bl x), strobeOf_pushLow]

/-- The two strobes of a controller byte, high nibble first. -/
def byteStrobes (b : CtlByte) : List Strobe :=
  [strobeOf (pushOperands b).1, strobeOf (pushOperands b).2]

theorem strobes_bytesEvents {p : Params} (h : p.pushLoBl = .follow) (da : Byte) (bl : Bool)
    (k : Nat → Ack) (n : Nat) (body : List CtlByte) (rest : List Event) :
    strobes (displayBytes da (some da) (bytesEvents p bl k n body ++ rest)) =
      body.flatMap byteStrobes ++ strobes (displayBytes da (some da) rest) := by
  induction body generalizing n with
  | nil => rfl
  | cons b body ih =>
    simp only [bytesEvents, List.append_assoc, strobes_push h, ih]
    rfl

theorem strobes_bracketEvents {p : Params} (h : p.pushLoBl = .follow) (bl : Bool) (k : Nat → Ack)
    (body : List CtlByte) :
    strobes (displayBytes (deviceAddress p) none (bracketEvents p bl k body)) =
      body.flatMap byteStrobes :=
  (strobes_bytesEvents h (deviceAddress p) bl k 1 body [.p]).trans (List.append_nil _)

/-! ## Pairs -/

theorem pairStrobes_byteStrobes (b : CtlByte) :
    pairStrobes (strobeOf (pushOperands b).1) (strobeOf (pushOperands b).2) = some b := by
  cases b with
  | command c => revert c; decide
  | data c => revert c; decide

theorem pairUp_byteStrobes (body : List CtlByte) :
    pairUp (body.flatMap byteStrobes) = body.map some := by
  induction body with
  | nil => rfl
  | cons b body ih =>
    show pairStrobes _ _ :: pairUp (body.flatMap byteStrobes) = _
    rw [pairStrobes_byteStrobes, ih, List.map_cons]

/-! ## Acknowledged operations -/

theorem State.nackAmong_of_ack {i n : Nat} (h : ∀ j, j < i + n → s.ack j = .ack) :
    s.nackAmong i n = false := by
  simp only [State.nackAmong, List.any_eq_false, List.mem_range]
  intro j hj
  simp [h (i + j) (by omega)]

/-- Settles O51: push for push the receiver finds one strobe, and each pair of strobes is the byte
it was made of. -/
theorem receiverReadsTheBytesSent : Obligations.ReceiverReadsTheBytesSent := by
  refine ⟨fun p bl k n da body hp _ => ?_, fun i d body s hd hr hp hn hk => ?_⟩
  · have h := strobes_bytesEvents hp da bl k n body []
    simp only [displayBytes, strobes, List.append_nil] at h
    rw [h, pairUp_byteStrobes]
  · refine ⟨_, _, exec_bracketOf_of_ack (hk 0 (by omega)) hd hr, rfl, ?_, ?_⟩
    · simp [hn, State.nackAmong_of_ack hk]
    · exact (congrArg pairUp (strobes_bracketEvents hp d.backlightOn s.ack body)).trans
        (pairUp_byteStrobes body)

/-! ## LCD_INIT (R140) -/

/-- LCD_INIT's events are the wait of step 1, the acknowledged start and the handshake. -/
theorem initEvents_eq (p : Params) (rows : Byte) (k : Nat → Ack) :
    initEvents p rows k = .w Config.tPower :: .s :: .a (deviceAddress p) .ack ::
      handshakeEvents p true rows fun n => k (1 + n) := by
  rw [handshakeEvents, bytesEvents_shift]
  simp [initEvents, initRegisters, deviceAddress, Config.tPower]

/-- LCD_INIT whose checks pass and whose opening start is acknowledged at once. -/
theorem exec_lcdInit_of_ack {columns rows : Byte} (hk : s.ack 0 = .ack)
    (h : s.InitReady columns rows) :
    exec (.lcdInit columns rows) s = .next
      { s.after (initEvents s.cfg rows s.ack) 1 25 .notValid with
        ds := initRegisters s.cfg columns rows, dsValid := true, busOpen := false, seq := .idle } := by
  rw [exec_lcdInit_of_ready h, openDisplay_handshake_of_ack _ _ (by simpa using hk), initEvents_eq]
  refine congrArg Host.Outcome.next ?_
  apply State.ext <;> simp
  case ds => rfl
  case nackSeen => rfl

/-- The commands of steps 7 to 10, in the order they are sent. -/
def initCommands (p : Params) (rows : Byte) : List CtlByte :=
  [.command (p.cmdFunctionSet ||| (initRegisters p 0#8 rows).functionFlags),
   .command (p.cmdDisplayControl ||| p.displayOn),
   .command p.cmdClearDisplay,
   .command (p.cmdEntryModeSet ||| (p.leftEntry ||| p.shiftDecrement))]

/-- The strobe of a function-set sent as its high nibble (steps 3 and 4). -/
def functionSetStrobe (p : Params) (mode : Byte) : Strobe :=
  { rs := false, rw := false, nibble := (p.cmdFunctionSet ||| mode).extractLsb' 4 4 }

theorem strobeOf_and_hi (c : Byte) :
    strobeOf (c &&& 0xF0#8) = { rs := false, rw := false, nibble := c.extractLsb' 4 4 } := by
  revert c; decide

/-- The strobes of an LCD_INIT: a nibble each of steps 3 and 4, then those of its commands. -/
theorem strobes_initEvents {p : Params} (h : p.pushLoBl = .follow) (rows : Byte) (k : Nat → Ack) :
    strobes (displayBytes (deviceAddress p) none (initEvents p rows k)) =
      [functionSetStrobe p p.mode8Bit, functionSetStrobe p p.mode8Bit,
        functionSetStrobe p p.mode8Bit, functionSetStrobe p p.mode4Bit]
        ++ (initCommands p rows).flatMap byteStrobes := by
  have hcommands := strobes_bytesEvents h (deviceAddress p) true k 9 (initCommands p rows) [.p]
  rw [initEvents_eq, handshakeEvents, bytesEvents_shift]
  simp only [List.append_assoc, List.cons_append, List.nil_append, displayBytes, strobes_push h,
    strobeOf_and_hi]
  rw [← initCommands, hcommands]
  rfl

/-! ## Where an LCD_INIT begins -/

theorem beginsInit_pushEvents (p : Params) (bl : Bool) (x : Byte) (k1 k2 : Ack) :
    ∀ e ∈ pushEvents p bl x k1 k2, beginsInit e = false := by
  simp [pushEvents, beginsInit, Config.tSettle, Config.tPower]

theorem beginsInit_bytesEvents (p : Params) (bl : Bool) (k : Nat → Ack) (n : Nat)
    (body : List CtlByte) : ∀ e ∈ bytesEvents p bl k n body, beginsInit e = false := by
  induction body generalizing n with
  | nil => simp [bytesEvents]
  | cons b rest ih =>
    simp only [bytesEvents, List.forall_mem_append]
    have hpush := beginsInit_pushEvents p bl
    exact ⟨⟨hpush _ _ _, hpush _ _ _⟩, ih _⟩

theorem beginsInit_handshakeEvents (p : Params) (bl : Bool) (rows : Byte) (k : Nat → Ack) :
    ∀ e ∈ handshakeEvents p bl rows k, beginsInit e = false := by
  have hpush := beginsInit_pushEvents p bl
  have hbytes := beginsInit_bytesEvents p bl k 8
  simp only [handshakeEvents, List.forall_mem_append, List.forall_mem_singleton]
  exact ⟨⟨⟨⟨⟨⟨⟨hpush _ _ _, rfl⟩, hpush _ _ _⟩, rfl⟩, hpush _ _ _⟩, hpush _ _ _⟩, hbytes _⟩, rfl⟩

/-- An LCD_INIT begins at its first event and nowhere after it. -/
theorem splitAtInits_initEvents (p : Params) (rows : Byte) (k : Nat → Ack) :
    splitAtInits (initEvents p rows k) = ([], [(initEvents p rows k).tail]) := by
  rw [initEvents_eq, splitAtInits, splitAtInits_of_none _ fun e he => ?_]
  · rfl
  · obtain rfl | rfl | he := by simpa only [List.mem_cons] using he
    exacts [rfl, rfl, beginsInit_handshakeEvents p true rows _ e he]

/-- The receiver reads an LCD_INIT as its four commands. -/
theorem receivedIn_initEvents {p : Params} (h : p.pushLoBl = .follow) (rows : Byte)
    (k : Nat → Ack) :
    receivedIn (deviceAddress p) (initEvents p rows k) = (initCommands p rows).map some := by
  have hwait : displayBytes (deviceAddress p) none (initEvents p rows k).tail =
      displayBytes (deviceAddress p) none (initEvents p rows k) := rfl
  simp only [receivedIn, splitAtInits_initEvents, List.flatMap_singleton, receivedSince, hwait,
    strobes_initEvents h]
  exact pairUp_byteStrobes _

/-- The receiver view of a state whose bytes were all acknowledged. -/
theorem received_of_acked (h : s.nackSeen = false) :
    s.received = some (receivedIn (deviceAddress s.cfg) s.trace) := by
  rw [State.received, h]
  rfl

/-- With every byte acknowledged, the receiver view grows by what events that begin with an LCD_INIT
deliver. -/
theorem received_append {es : List Event} (hs : s.nackSeen = false) (ht : t.nackSeen = false)
    (hcfg : t.cfg = s.cfg) (htrace : t.trace = s.trace ++ es) (hes : (splitAtInits es).1 = []) :
    t.received = s.received.map (· ++ receivedIn (deviceAddress s.cfg) es) := by
  rw [received_of_acked ht, received_of_acked hs, hcfg, htrace, receivedIn_append _ _ _ hes]
  rfl

/-- Settles O52: the strobes of LCD_INIT's events, and the cut its first event makes in the trace. -/
theorem receiverReadsTheHandshake : Obligations.ReceiverReadsTheHandshake := by
  intro columns rows s hs hp hn hk
  have hreceived := receivedIn_initEvents hp rows s.ack
  have hclean : (s.after (initEvents s.cfg rows s.ack) 1 25 .notValid).nackSeen = false := by
    simp [hn, State.nackAmong_of_ack (i := 1) (n := 24) hk]
  refine ⟨_, _, exec_lcdInit_of_ack (hk 0 (by decide)) hs, rfl, hclean, ?_, hreceived, ?_⟩
  · exact congrArg (List.take 4) (strobes_initEvents hp rows s.ack)
  · show _ = s.received.map (· ++ (initCommands s.cfg rows).map some)
    rw [← hreceived]
    exact received_append hn hclean rfl rfl (by rw [splitAtInits_initEvents])

end Sys2Proof.Machine
end

section
/-! PROOFS. Encoding and decoding undo each other (R80 to R103), and what the
tables' words decode to. -/

namespace Sys2Proof.Machine

variable {p : Params} {i : Instr} {v : Byte}

/-! ## The bytes with fields of their own -/

/-- An expander byte gives its five fields back (R80). -/
theorem decodeXb_encode (nibble : BitVec 4) (bl e rw rs : Bool) :
    decodeXb (nibble.setWidth 8 <<< 4 ||| bitAt bl 3 ||| bitAt e 2 ||| bitAt rw 1 ||| bitAt rs 0) =
      .xb nibble bl e rw rs := by
  revert nibble bl e rw rs
  decide

/-- An address byte gives its two fields back (R90). -/
theorem decodeAb_encode (addr : BitVec 7) (dir : Bool) :
    decodeAb (addr.setWidth 8 <<< 1 ||| bitAt dir 0) = .ab addr dir := by
  revert addr dir
  decide

theorem encode_decodeXb (p : Params) (v : Byte) : encode p (decodeXb v) = .out (.xb v) := by
  simp only [decodeXb, encode]
  revert v
  decide

theorem encode_decodeAb (p : Params) (v : Byte) : encode p (decodeAb v) = .out (.ab v) := by
  simp only [decodeAb, encode]
  revert v
  decide

/-! ## Controller commands -/

/-- A controller byte that decodes was compared with the encoding of what it decodes to (R83). -/
theorem encode_of_decodeHc (h : decodeHc p v = .ok i) : encode p i = .out (.hc v) := by
  simp only [decodeHc, beq_iff_eq] at h
  repeat (split at h; · next hv => cases h; exact congrArg (fun w => CodeWord.out (.hc w)) hv.symm)
  cases h

/-- Where the numbers give no two commands one byte, the byte of a command decodes to it. -/
theorem decodeHc_encode (hp : p.CommandsDiffer) (h : encode p i = .out (.hc v)) :
    decodeHc p v = .ok i := by
  obtain ⟨j, hj⟩ := decodeHc_of_encode h
  rw [hj, hp j i v (encode_of_decodeHc hj) h]

/-- The default numbers give no two commands one byte: each decodes to itself. -/
theorem defaults_commandsDiffer : Config.defaults.CommandsDiffer := by
  have hdecode {i v} (h : encode Config.defaults i = .out (.hc v)) :
      (decodeHc Config.defaults v).toOption = some i := by
    cases i <;> simp only [encode, CodeWord.out.injEq, OutWord.hc.injEq, reduceCtorEq] at h <;>
      subst h
    case hcClear => decide
    case hcEntryMode left shift => revert left shift; decide
    case hcDispCtrl disp curs blnk => revert disp curs blnk; decide
    case hcFuncSet eight two font => revert eight two font; decide
    case hcSetCgram slot => revert slot; decide
    case hcSetDdram addr => revert addr; decide
  exact fun i j v hi hj => Option.some.inj ((hdecode hi).symm.trans (hdecode hj))

/-! ## The statements -/

/-- The words of an instruction decode to it: a record by its operation code, a controller command
by the premise, the other bytes by their fields. -/
theorem decodeWord_encode (hp : p.CommandsDiffer) (i : Instr) :
    decodeWord p (encode p i) = .ok i := by
  cases i with
  | readByte k | display k | cursor k | blink k | direction k | autoshift k | backlight k =>
    cases k <;> rfl
  | xb nibble bl e rw rs => exact congrArg Except.ok (decodeXb_encode nibble bl e rw rs)
  | ab addr dir => exact congrArg Except.ok (decodeAb_encode addr dir)
  | hcClear | hcEntryMode _ _ | hcDispCtrl _ _ _ | hcFuncSet _ _ _ | hcSetCgram _ | hcSetDdram _ =>
    exact decodeHc_encode hp rfl
  | _ => rfl

/-- Settles O53: the default numbers are among those that tell the commands apart. -/
theorem decodingInvertsEncoding : Obligations.DecodingInvertsEncoding :=
  ⟨fun _ => decodeWord_encode, decodeWord_encode defaults_commandsDiffer⟩

/-- Settles O54, format by format. -/
theorem encodingInvertsOutputDecoding : Obligations.EncodingInvertsOutputDecoding := by
  intro p w i h
  cases w with
  | xb v => cases h; exact encode_decodeXb p v
  | hc v => exact encode_of_decodeHc h
  | hd v => cases h; rfl
  | ab v => cases h; exact encode_decodeAb p v

/-- Settles O55: fixed words, evaluated. -/
theorem someWordsDecodeAsWritten : Obligations.SomeWordsDecodeAsWritten :=
  ⟨rfl, rfl, rfl, rfl, rfl, rfl, rfl, rfl, rfl, rfl⟩

/-- A code that selects no operation is decoded to nothing (R95). -/
theorem decode_of_reserved {record : PortRecord}
    (h : record.opSel ∈ [0x07#5, 0x0C#5, 0x0D#5, 0x0E#5, 0x0F#5, 0x1D#5, 0x1E#5, 0x1F#5]) :
    decode record = .error (.reservedOp record.opSel) := by
  simp only [List.mem_cons, List.not_mem_nil, or_false] at h
  obtain h | h | h | h | h | h | h | h := h <;> simp [decode, h]

/-- Settles O4: the record is consumed and what it decodes to is rejected. -/
theorem reservedCodesAreRefused : Obligations.ReservedCodesAreRefused := by
  intro s record rest hs hp hop
  simp only [step, hs, hp, decode_of_reserved hop]
  rw [← hs]
  rfl

end Sys2Proof.Machine
end

section
/-! PROOFS. The output-side formats as the sending of their byte (R80 to R90, R100, log 13), PUSH
(R82), and two operations against what they are made of: SETCURSOR (R98) and PRINT (R101). -/

namespace Sys2Proof.Machine

variable {s : State} {i : Instr}

/-! ## Closed form behind passing checks -/

/-- One push in the open transaction, its checks passed. -/
theorem raw_push_of_pass {body : State → State} {x : Byte} (hr : s.ffReady = true)
    (hv : s.dsValid = true) (hb : s.busOpen = true)
    (h : body (s.setResult .notValid) = push x (s.setResult .notValid)) :
    raw s body = .next
      (s.after (pushEvents s.cfg s.ds.backlightOn x (s.ack 0) (s.ack 1)) 0 2 .notValid) := by
  rw [raw_of_pass body hr hv hb, h, push_eq]
  rfl

/-- One command in the open transaction, its checks passed. -/
theorem raw_cmd4_of_pass {body : State → State} {c : Byte} (hr : s.ffReady = true)
    (hv : s.dsValid = true) (hb : s.busOpen = true)
    (h : body (s.setResult .notValid) = cmd4 c (s.setResult .notValid)) :
    raw s body = .next
      (s.after (bytesEvents s.cfg s.ds.backlightOn s.ack 0 [.command c]) 0 4 .notValid) := by
  rw [raw_of_pass body hr hv hb, h, cmd4_eq]
  rfl

/-- Settles O15: the push's closed form, with BL of the second byte as in the first. -/
theorem pushStrobesTheEnableLine : Obligations.PushStrobesTheEnableLine := by
  intro x s hr hv hb hlo
  have h : exec (.push x) s = _ := raw_push_of_pass hr hv hb rfl
  simpa [pushEvents, hlo, Config.e, Config.bl, Config.tSettle] using h

/-! ## The formats -/

/-- The layout DB7 DB6 DB5 DB4 BL E RW RS (R80). -/
theorem expanderByte_eq_append (nibble : BitVec 4) (bl e rw rs : Bool) :
    expanderByte nibble bl e rw rs = nibble ++ (BitVec.ofBool bl ++ BitVec.ofBool e
      ++ BitVec.ofBool rw ++ BitVec.ofBool rs) := by
  revert nibble bl e rw rs
  decide

/-- The layout of an address byte (R90). -/
theorem addressByte_eq_append (addr : BitVec 7) (dir : Bool) :
    addressByte addr dir = addr ++ BitVec.ofBool dir := by
  revert addr dir
  decide

/-- Settles O35: the byte is written as BusWrite writes it, in R80's layout. -/
theorem expanderByteIsOneDataByte : Obligations.ExpanderByteIsOneDataByte := by
  intro nibble bl e rw rs s hr hb
  simp only [exec, execXb]
  rw [guarded_of_pass ((openChecks_pass s).2 ⟨hr, hb⟩), busWrite_eq, expanderByte_eq_append]
  rfl

/-- Settles O37: the format is WriteData. -/
theorem dataFormatSendsTwoNibbles : Obligations.DataFormatSendsTwoNibbles :=
  fun c _ hr hv hb =>
    (raw_of_pass (writeData c) hr hv hb).trans (congrArg Host.Outcome.next (writeData_eq _ c))

/-- Settles O38: a repeated start where the bus is open, a start where it is closed. -/
theorem addressByteFollowsAStart : Obligations.AddressByteFollowsAStart := by
  intro addr dir s hr
  have hpass : firstFailing [readyCheck s] = none := by simp [readyCheck, hr]
  simp only [exec, execAb]
  rw [guarded_of_pass hpass, addressByte_eq_append]
  cases hb : s.busOpen with
  | true =>
    simp only [State.setResult_busOpen, hb, if_true, busRepStart_eq, State.sent_accepted]
    rw [← hb]
    rfl
  | false =>
    simp only [State.setResult_busOpen, hb, Bool.false_eq_true, if_false, busStart_eq,
      State.sent_accepted]
    rfl

/-- Settles O36: a format's byte is its encoding, sent as a push of its high nibble or as two
nibbles. -/
theorem commandFormatsSendTheirPattern : Obligations.CommandFormatsSendTheirPattern := by
  constructor
  · intro two font byte s hr hv hb h
    cases h
    simp only [exec, execHcFuncSet, if_true]
    exact raw_push_of_pass hr hv hb rfl
  · intro i byte s hr hv hb hi h
    cases i with
    | hcFuncSet eight two font =>
      cases h
      cases eight with
      | true => exact absurd rfl (hi two font)
      | false =>
        simp only [exec, execHcFuncSet, Bool.false_eq_true, if_false]
        exact raw_cmd4_of_pass hr hv hb rfl
    | hcClear | hcEntryMode _ _ | hcDispCtrl _ _ _ | hcSetCgram _ | hcSetDdram _ =>
      cases h
      simp only [exec, execHcClear, execHcEntryMode, execHcDispCtrl, execHcSetCgram, execHcSetDdram]
      exact raw_cmd4_of_pass hr hv hb rfl
    | _ => cases h

/-! ## SETCURSOR is its bracket (R98) -/

/-- The operations of the expansion, their checks passed. -/
theorem exec_startWait_of_ack (address : Byte) (hr : s.ffReady = true) (hb : s.busOpen = false)
    (hk : s.ack 0 = .ack) :
    exec (.startWait address) s = .next
      ((((((s.setResult .notValid).drawAcks 1).emits [.s, .a address .ack]).setSeq .idle).setBusOpen
        true).setResult (.status true)) := by
  simp only [exec, execStartWait]
  rw [guarded_of_pass ((startChecks_pass s).2 ⟨hr, hb⟩), attempt_of_ack _ _ _ _ (by exact hk)]
  rfl

theorem exec_setCursorRaw_of_pass {col row address : Byte} (hr : s.ffReady = true)
    (hv : s.dsValid = true) (hb : s.busOpen = true)
    (ha : cursorAddress s.ds col row = .ok address) :
    exec (.setCursorRaw col row) s = .next
      (cmd4 (setDdramCommand s.cfg address) (s.setResult .notValid)) := by
  simp only [exec, execSetCursorRaw]
  rw [guarded_of_pass ((rawChecks_pass s).2 ⟨hr, hv, hb⟩)]
  simp [ha]

theorem exec_stop_of_pass (hr : s.ffReady = true) (hb : s.busOpen = true) :
    exec .stop s = .next (busStop (s.setResult .notValid)) := by
  simp only [exec, execStop]
  rw [guarded_of_pass ((openChecks_pass s).2 ⟨hr, hb⟩)]

/-- SETCURSOR that leads to a state has an address, and has sent its command between an acknowledged
start and a stop. -/
theorem exec_setCursor_of_ack {t : State} {col row : Byte} (hs : s.BracketReady)
    (hk : s.ack 0 = .ack) (h : exec (.setCursor col row) s = .next t) :
    ∃ address, cursorAddress s.ds col row = .ok address
      ∧ t = busStop (cmd4 (setDdramCommand s.cfg address)
          (((((s.setResult .notValid).drawAcks 1).emits [.s, .a (deviceAddress s.cfg) .ack]).setSeq
            .idle).setBusOpen true)) := by
  simp only [exec, execSetCursor] at h
  rw [guarded_of_pass ((bracketChecks_pass s).2 hs), State.setResult_ds] at h
  split at h
  · next address ha =>
    rw [openDisplay, attempt_of_ack _ _ _ _ (by exact hk)] at h
    cases h
    exact ⟨address, ha, rfl⟩
  · cases h

/-- Settles O49: on either side the same start, command and stop, with the result port set and
cleared on the way. -/
theorem setCursorExpandsToItsBracket : Obligations.SetCursorExpandsToItsBracket := by
  intro col row s t t1 t2 t3 hr hv hb hk h h1 h2 h3
  obtain ⟨address, ha, rfl⟩ := exec_setCursor_of_ack ⟨hr, hv, hb⟩ hk h
  rw [exec_startWait_of_ack _ hr hb hk] at h1
  cases h1
  rw [exec_setCursorRaw_of_pass (by exact hr) (by exact hv) rfl (by exact ha)] at h2
  cases h2
  rw [exec_stop_of_pass (by simpa [cmd4_eq] using hr) (by simp [cmd4_eq])] at h3
  cases h3
  rfl

/-! ## The length of PRINT's trace (R101) -/

/-- What one push has `c` of, `n` controller bytes have `2 * c * n` of. -/
theorem bytesEvents_filter_length {f : Event → Bool} {c : Nat}
    (h : ∀ p bl x k1 k2, ((pushEvents p bl x k1 k2).filter f).length = c) (p : Params) (bl : Bool)
    (k : Nat → Ack) (n : Nat) (body : List CtlByte) :
    ((bytesEvents p bl k n body).filter f).length = 2 * c * body.length := by
  induction body generalizing n with
  | nil => rfl
  | cons b rest ih =>
    simp only [bytesEvents, List.filter_append, List.length_append, h, ih, List.length_cons,
      Nat.mul_add]
    omega

theorem bytesEvents_length (p : Params) (bl : Bool) (k : Nat → Ack) (n : Nat)
    (body : List CtlByte) : (bytesEvents p bl k n body).length = 6 * body.length := by
  simpa using bytesEvents_filter_length (f := fun _ => true) (c := 3) (fun _ _ _ _ _ => rfl) p bl k n
    body

/-- Settles O50: PRINT's events are a bracket around one data byte a character. -/
theorem printTraceLength : Obligations.PrintTraceLength := by
  intro text s t hr hv hb hk hterm h
  have hbody : s.bracketOf (.print text) = some (s.ds, text.map .data) :=
    congrArg (fun l => some (s.ds, List.map CtlByte.data l))
      (printed_eq s.cfg.terminator text [] hterm).1
  rw [exec_bracketOf_of_ack hk hbody ⟨hr, hv, hb⟩] at h
  cases h
  refine ⟨_, rfl, ?_, ?_, ?_⟩
  · simp [bracketEvents, Event.isData, bytesEvents_filter_length (f := Event.isData) (c := 2)
      fun _ _ _ _ _ => rfl]
  · simp [bracketEvents, Event.isWait, bytesEvents_filter_length (f := Event.isWait) (c := 1)
      fun _ _ _ _ _ => rfl]
  · simp [bracketEvents, bytesEvents_length]

end Sys2Proof.Machine
end

section
/-! PROOFS. Every command byte an operation builds is the encoding of a controller command, so it
decodes (R83 to R89, R103). -/

namespace Sys2Proof.Machine

variable {p : Params} {s : State} {i : Instr} {d : DisplayState} {body : List CtlByte}

/-! ## Flags that are bits -/

/-- A register under the mask of one bit is that bit's flag, set if the register carries it. -/
theorem and_of_isBit {mask : Byte} (h : ∃ k < 8, mask = 1#8 <<< k) (reg : Byte) :
    reg &&& mask = flag mask (carries reg mask) := by
  obtain ⟨k, -, rfl⟩ := h
  rw [carries, ← BitVec.twoPow_eq, BitVec.and_twoPow]
  cases reg.getLsbD k with
  | true => simp [flag]
  | false =>
    simp only [Bool.false_eq_true, if_false, flag]
    split
    · next h0 => exact beq_iff_eq.1 h0
    · rfl

/-- A register is what a mask leaves of it and what the mask covers. -/
theorem and_not_or_and (reg mask : Byte) : (reg &&& ~~~ mask) ||| (reg &&& mask) = reg := by
  ext k hk
  simp only [BitVec.getElem_or, BitVec.getElem_and, BitVec.getElem_not]
  cases reg[k] <;> cases mask[k] <;> rfl

/-! ## The bytes that are a command's -/

/-- The byte is the encoding of some controller command. -/
def HasCommand (p : Params) (c : Byte) : Prop :=
  ∃ i, encode p i = .out (.hc c)

/-- Such a byte decodes, to a command with that encoding. -/
theorem HasCommand.decodes {c : Byte} (h : HasCommand p c) :
    ∃ j, decodeOut p (.hc c) = .ok j ∧ encode p j = .out (.hc c) := by
  obtain ⟨i, hi⟩ := h
  obtain ⟨j, hj⟩ := decodeHc_of_encode hi
  exact ⟨j, hj, encode_of_decodeHc hj⟩

/-- Display-control with legal flags (R30, R86). -/
theorem hasCommand_displayControl (hp : p.FlagsAreBits) {d : DisplayState} (h : d.Legal p) :
    HasCommand p (p.cmdDisplayControl ||| d.controlFlags) := by
  obtain ⟨-, -, -, -, -, hctl, -⟩ := h
  have hsplit := and_not_or_and d.controlFlags (p.displayOn ||| p.cursorOn ||| p.blinkOn)
  rw [hctl, BitVec.zero_or, BitVec.and_or_distrib_left, BitVec.and_or_distrib_left,
    and_of_isBit (hp p.displayOn (by simp)), and_of_isBit (hp p.cursorOn (by simp)),
    and_of_isBit (hp p.blinkOn (by simp))] at hsplit
  exact ⟨.hcDispCtrl _ _ _,
    congrArg (fun f => CodeWord.out (.hc (p.cmdDisplayControl ||| f))) hsplit⟩

/-- Entry-mode-set with legal flags (R31, R85). -/
theorem hasCommand_entryMode (hp : p.FlagsAreBits) {d : DisplayState} (h : d.Legal p) :
    HasCommand p (p.cmdEntryModeSet ||| d.entryModeFlags) := by
  obtain ⟨-, -, -, -, -, -, hent⟩ := h
  have hsplit := and_not_or_and d.entryModeFlags (p.leftEntry ||| p.shiftIncrement)
  rw [hent, BitVec.and_or_distrib_left, ← BitVec.or_assoc,
    and_of_isBit (hp p.leftEntry (by simp)), and_of_isBit (hp p.shiftIncrement (by simp))] at hsplit
  exact ⟨.hcEntryMode _ _,
    congrArg (fun f => CodeWord.out (.hc (p.cmdEntryModeSet ||| f))) hsplit⟩

/-- Set-DDRAM-address with any address: the command is bit 7 alone (R89, R103). -/
theorem hasCommand_setDdram (hp : p.numbersAdmitted = true) (address : Byte) :
    HasCommand p (p.cmdSetDdramAddr ||| address) := by
  have h80 : p.cmdSetDdramAddr = 0x80#8 := by
    simp only [Params.numbersAdmitted, Bool.and_eq_true, beq_iff_eq] at hp
    obtain ⟨⟨⟨h, -⟩, -⟩, -⟩ := hp
    exact h
  exact ⟨.hcSetDdram _, congrArg (fun c => CodeWord.out (.hc c))
    (addr_carries (a := address) rfl (by simp [h80]))⟩

/-- Set-CGRAM-address with a masked slot (R88, R172). -/
theorem hasCommand_setCgram (p : Params) (location : Byte) :
    HasCommand p (p.cmdSetCgramAddr ||| ((location &&& 0x07#8) <<< 3)) := by
  have hslot : (location.setWidth 3).setWidth 8 = location &&& 0x07#8 := by
    revert location
    decide
  exact ⟨.hcSetCgram (location.setWidth 3),
    congrArg (fun slot : Byte => CodeWord.out (.hc (p.cmdSetCgramAddr ||| slot <<< 3))) hslot⟩

/-- Function-set with the mode alone (R87, R140 steps 3 and 4). -/
theorem hasCommand_functionSet_mode (p : Params) (eight : Bool) :
    HasCommand p (p.cmdFunctionSet ||| if eight then p.mode8Bit else p.mode4Bit) :=
  ⟨.hcFuncSet eight false false, by simp [encode, functionField, flag]⟩

/-- Function-set with `functionFlags` (R29, R140 step 7). -/
theorem hasCommand_functionSet_flags (p : Params) (columns rows : Byte) :
    HasCommand p (p.cmdFunctionSet ||| (initRegisters p columns rows).functionFlags) := by
  refine ⟨.hcFuncSet false (decide (rows.toNat > 1)) (p.fontDefault != 0x00#8),
    congrArg (fun f => CodeWord.out (.hc (p.cmdFunctionSet ||| f))) ?_⟩
  have hfont : flag (fontFlag p) (p.fontDefault != 0x00#8) = p.fontDefault := by
    by_cases h : p.fontDefault = 0x00#8 <;> simp [flag, fontFlag, h]
  have htwo : flag p.twoLine (decide (rows.toNat > 1)) =
      if rows.toNat > 1 then p.twoLine else 0x00#8 := by simp [flag]
  simp only [functionField, hfont, htwo, initRegisters, Bool.false_eq_true, if_false]
  ac_rfl

/-! ## The bytes of the operations -/

/-- What the statements call a bracketed operation writes only the register it owns (R35). -/
theorem bracketOf_writes (h : s.bracketOf i = some (d, body)) : Instr.Writes i s d := by
  cases i with
  | setCursor col row => exact .inl (bracketOf_setCursor h).1
  | createChar location bitmap =>
    simp only [State.bracketOf] at h
    split at h
    · cases h; exact .inl rfl
    · cases h
  | clear | print | printChar => cases h; exact .inl rfl
  | backlight v => cases h; exact .inr (.inl ⟨v, rfl, rfl⟩)
  | display v =>
    cases h
    exact .inr (.inr (.inl ⟨_, v, .inl ⟨rfl, rfl⟩, by rw [toggleBit_eq]; rfl⟩))
  | cursor v =>
    cases h
    exact .inr (.inr (.inl ⟨_, v, .inr (.inl ⟨rfl, rfl⟩), by rw [toggleBit_eq]; rfl⟩))
  | blink v =>
    cases h
    exact .inr (.inr (.inl ⟨_, v, .inr (.inr ⟨rfl, rfl⟩), by rw [toggleBit_eq]; rfl⟩))
  | direction v =>
    cases h
    exact .inr (.inr (.inr ⟨_, v, .inl ⟨rfl, rfl⟩, by rw [toggleBit_eq]; rfl⟩))
  | autoshift v =>
    cases h
    exact .inr (.inr (.inr ⟨_, v, .inr ⟨rfl, rfl⟩, by rw [toggleBit_eq]; rfl⟩))
  | _ => cases h

/-- Every command a bracketed operation sends from legal registers is the encoding of one. -/
theorem bracketOf_hasCommand {c : Byte} (hp : s.cfg.numbersAdmitted = true)
    (hf : s.cfg.FlagsAreBits) (hl : s.ds.Legal s.cfg) (h : s.bracketOf i = some (d, body))
    (hc : .command c ∈ body) : HasCommand s.cfg c := by
  have hd : d.Legal s.cfg := (bracketOf_writes h).legal hl
  cases i with
  | clear =>
    cases h
    obtain rfl : c = s.cfg.cmdClearDisplay := by simpa using hc
    exact ⟨.hcClear, rfl⟩
  | setCursor col row =>
    obtain ⟨-, address, -, rfl⟩ := bracketOf_setCursor h
    obtain rfl : c = s.cfg.cmdSetDdramAddr ||| address := by simpa using hc
    exact hasCommand_setDdram hp address
  | createChar location bitmap =>
    simp only [State.bracketOf] at h
    split at h
    · cases h
      obtain rfl : c = s.cfg.cmdSetCgramAddr ||| ((location &&& 0x07#8) <<< 3) := by
        simpa using hc
      exact hasCommand_setCgram s.cfg location
    · cases h
  | display | cursor | blink | backlight =>
    cases h
    cases List.mem_singleton.1 hc
    exact hasCommand_displayControl hf hd
  | direction | autoshift =>
    cases h
    cases List.mem_singleton.1 hc
    exact hasCommand_entryMode hf hd
  | print | printChar => cases h; simp at hc
  | _ => cases h

/-- Settles O59: the registers a bracketed operation leaves are legal, and so are LCD_INIT's, whose
flags are those of any legal geometry. -/
theorem builtCommandsAreDecoded : Obligations.BuiltCommandsAreDecoded := by
  refine ⟨fun s i d body c hp hf hl h hc => (bracketOf_hasCommand hp hf hl h hc).decodes,
    fun p columns rows c _ hf hc => ?_⟩
  have hl := initRegisters_legal p (columns := 1#8) (rows := 1#8) true (by decide) (by decide)
    (by decide)
  simp only [List.mem_cons, List.not_mem_nil, or_false] at hc
  obtain rfl | rfl | rfl | rfl | rfl | rfl := hc
  · exact (hasCommand_functionSet_mode p true).decodes
  · exact (hasCommand_functionSet_mode p false).decodes
  · exact (hasCommand_functionSet_flags p columns rows).decodes
  · exact (hasCommand_displayControl hf hl).decodes
  · exact HasCommand.decodes ⟨.hcClear, rfl⟩
  · exact (hasCommand_entryMode hf hl).decodes

end Sys2Proof.Machine
end

section
/-! PROOFS. The operations of the frame formatter that make no second attempt (R110, R111, R113 to
R116): their effect where their checks pass, and their refusals. -/

namespace Sys2Proof.Machine

variable {s : State} {i : Instr}

/-! ## Refusals (R188, R190) -/

/-- FF_INIT apart, every instruction is refused first of all where the bus is not configured. -/
theorem exec_of_not_ready (hi : ∀ hz, i ≠ .ffInit hz) (hr : s.ffReady = false) :
    exec i s = .next (s.refuse .notReady) := by
  refine exec_of_fail ?_
  cases i with
  | ffInit hz => exact absurd rfl (hi hz)
  | _ => simp [checksOf, startChecks, openChecks, rawChecks, bracketChecks, readyCheck, hr]

/-- An operation that needs the bus configured and closed, and no more, is refused inside a
transaction. -/
theorem exec_of_start_open (hi : checksOf s i = startChecks s) (hr : s.ffReady = true)
    (hb : s.busOpen = true) : exec i s = .next (s.refuse .busOpen) :=
  exec_of_fail (by simp [hi, startChecks, readyCheck, closedCheck, hr, hb])

/-- An operation that needs a configured bus and an open transaction, and no more, is refused where
there is none. -/
theorem exec_of_open_closed (hi : checksOf s i = openChecks s) (hr : s.ffReady = true)
    (hb : s.busOpen = false) : exec i s = .next (s.refuse .busClosed) :=
  exec_of_fail (by simp [hi, openChecks, readyCheck, openCheck, hr, hb])

/-! ## The operations -/

/-- Settles O7: the only check is that no transaction is open. -/
theorem ffInitConfiguresTheBus : Obligations.FfInitConfiguresTheBus := by
  refine fun hz s => ⟨fun hb => ?_, fun hb => exec_of_fail (by simp [checksOf, closedCheck, hb])⟩
  simp only [exec, execFfInit]
  rw [guarded_of_pass (by simp [closedCheck, hb])]
  rfl

/-- Settles O8: the closed form of BusStart, with its answer as the result. -/
theorem startMakesOneAttempt : Obligations.StartMakesOneAttempt := by
  refine fun address s => ⟨fun hr hb => ?_, exec_of_not_ready (by simp), exec_of_start_open rfl⟩
  simp only [exec, execStart]
  rw [guarded_of_pass ((startChecks_pass s).2 ⟨hr, hb⟩), busStart_eq]
  rfl

/-- Settles O11: the closed form of BusRepStart, with its answer as the result. -/
theorem repeatedStartKeepsTheBus : Obligations.RepeatedStartKeepsTheBus := by
  refine fun address s => ⟨fun hr hb => ?_, exec_of_not_ready (by simp), exec_of_open_closed rfl⟩
  simp only [exec, execRepStart]
  rw [guarded_of_pass ((openChecks_pass s).2 ⟨hr, hb⟩), busRepStart_eq]
  rfl

/-- Settles O12: the closed form of BusWrite, with its answer as the result. -/
theorem writeByteSendsItsByte : Obligations.WriteByteSendsItsByte := by
  refine fun data s => ⟨fun hr hb => ?_, exec_of_not_ready (by simp), exec_of_open_closed rfl⟩
  simp only [exec, execWriteByte]
  rw [guarded_of_pass ((openChecks_pass s).2 ⟨hr, hb⟩), busWrite_eq]
  rfl

/-- Settles O13: BusRead draws one byte of the slave, which is the result. -/
theorem readByteReturnsTheSlavesByte : Obligations.ReadByteReturnsTheSlavesByte := by
  refine fun requestAck s =>
    ⟨fun hr hb => ?_, exec_of_not_ready (by simp), exec_of_open_closed rfl⟩
  simp only [exec, execReadByte]
  rw [guarded_of_pass ((openChecks_pass s).2 ⟨hr, hb⟩)]
  rfl

/-- Settles O14: BusStop where its checks pass. -/
theorem stopReleasesTheBus : Obligations.StopReleasesTheBus :=
  fun _ => ⟨exec_stop_of_pass, exec_of_not_ready (by simp), exec_of_open_closed rfl⟩

end Sys2Proof.Machine
end

section
/-! PROOFS. The retrying start (R112): in closed form what follows it once it is acknowledged, after
any number of failed attempts, and what START_WAIT does when its attempts run out. -/

namespace Sys2Proof.Machine

variable {s : State}

/-! ## What follows the acknowledged start, in closed form -/

/-- The state in which all that follows the acknowledged opening start begins, after events `es` for
which `n` answers were drawn, none of them noted (R38). -/
def State.acknowledged (n : Nat) (es : List Event) (s : State) : State :=
  (((s.drawAcks n).emits es).setSeq .idle).setBusOpen true

@[simp] theorem State.acknowledged_ack (n : Nat) (es : List Event) (s : State) :
    (s.acknowledged n es).ack = fun m => s.ack (n + m) :=
  funext fun m => s.drawAcks_ack n m

/-- It is what the statements call `after`, in the open transaction. -/
theorem State.acknowledged_eq (n : Nat) (es : List Event) (s : State) :
    s.acknowledged n es = ((s.after es n n s.result).setSeq .idle).setBusOpen true := by
  apply State.ext <;> simp [State.acknowledged, State.nackAmong_zero]

/-- Sending from there notes the answers to what is sent, and none before them. -/
theorem State.sent_acknowledged (n m : Nat) (es fs : List Event) (s : State) :
    (s.acknowledged n es).sent m fs =
      ((s.after (es ++ fs) n (n + m) s.result).setSeq .idle).setBusOpen true := by
  have hnoted : (s.acknowledged n es).nackAmong 0 m = s.nackAmong n m :=
    State.nackAmong_congr m 0 n fun k => by simp
  simp only [State.sent, hnoted]
  apply State.ext <;> simp [State.acknowledged, Nat.add_assoc]

/-- START_WAIT owns the bus and returns `ok = 1` (R112). -/
theorem opened_hostStart_acknowledged (n : Nat) (es : List Event) (s : State) :
    opened .hostStart (s.acknowledged n es) =
      { s.after es n n (.status true) with busOpen := true, seq := .idle } := by
  rw [State.acknowledged_eq]
  rfl

/-- A bracketed operation sends its bytes and its stop (R150). -/
theorem opened_bracket_acknowledged (n : Nat) (es : List Event) (body : List CtlByte) (s : State) :
    opened (.bracket body) (s.acknowledged n es) =
      { s.after (es ++ bytesEvents s.cfg s.ds.backlightOn s.ack n body ++ [.p])
          n (n + 4 * body.length) s.result with busOpen := false, seq := .idle } := by
  rw [opened_bracket_eq, State.acknowledged_ack, bytesEvents_shift, State.sent_acknowledged,
    List.append_assoc]
  rfl

/-- LCD_INIT runs its handshake (R140). -/
theorem opened_handshake_acknowledged (n : Nat) (es : List Event) (columns rows : Byte)
    (s : State) :
    opened (.handshake columns rows) (s.acknowledged n es) =
      { s.after (es ++ handshakeEvents s.cfg s.ds.backlightOn rows fun m => s.ack (n + m))
          n (n + 24) s.result with
        ds := { initRegisters s.cfg columns rows with backlightOn := s.ds.backlightOn }
        dsValid := true
        busOpen := false
        seq := .idle } := by
  simp only [opened]
  rw [handshake_eq, State.acknowledged_ack, State.sent_acknowledged]
  rfl

/-! ## Attempts that fail before it -/

/-- The next attempt fails: one more than the `f` after it. -/
theorem failedAttempts_succ (p : Params) (address : Byte) (f : Nat) :
    failedAttempts p address (f + 1) =
      [.s, .a address .nack] ++ retryEvents p ++ failedAttempts p address f := by
  simp [failedAttempts, List.replicate_succ]

/-- An attempt, `f` of which fail before one is acknowledged, ends `f` steps after its own, with the
failed attempts and the acknowledged one sent and all that follows (R112). -/
theorem attempt_retries (address : Byte) (after : After) {n f : Nat}
    (hleft : s.AttemptsLeft (n + f)) (hnack : ∀ j, j < f → s.ack j = .nack) (hack : s.ack f = .ack) :
    ∃ t, attempt address n after s = .next t ∧ Sys2Proof.core.run f t = .next (opened after
      (s.acknowledged (f + 1) (failedAttempts s.cfg address f ++ [.s, .a address .ack]))) := by
  induction f generalizing n s with
  | zero => exact ⟨_, attempt_of_ack s address n after hack, rfl⟩
  | succ f ih =>
    have hmore : exhausted s.cfg (n + 1) = false :=
      exhausted_of_left s (n + 1) fun m hm => by have := hleft m hm; omega
    have hfirst := attempt_of_nack_left s address n after (hnack 0 f.succ_pos) hmore
    obtain ⟨u, hu, hrun⟩ := ih (n := n + 1)
      (s := ((s.drawAcks 1).emits ([.s, .a address .nack] ++ retryEvents s.cfg)).setSeq
        (.startWait address (n + 1) after))
      (fun m hm => by have := hleft m hm; omega)
      (fun j hj => by simpa using hnack (1 + j) (by omega))
      (by simpa [Nat.add_comm] using hack)
    refine ⟨_, hfirst, ?_⟩
    rw [run_succ_of_next f ((step_of_startWait rfl).trans hu), hrun]
    refine congrArg (fun v => Host.Outcome.next (opened after v)) ?_
    apply State.ext <;> simp [State.acknowledged, failedAttempts_succ]
    case env => omega

/-- Settles O42: an acknowledged attempt of the loop, and what follows it. -/
theorem waitingOperationCompletesOnAcknowledge :
    Obligations.WaitingOperationCompletesOnAcknowledge := by
  refine ⟨fun s address failed hs hk => ?_, fun s address failed body hs hk => ?_,
    fun s failed columns rows hs hbl hk => ?_⟩ <;>
    refine (step_of_startWait hs).trans ((attempt_of_ack s _ _ _ hk).trans
      (congrArg Host.Outcome.next ?_))
  · exact opened_hostStart_acknowledged 1 _ s
  · exact opened_bracket_acknowledged 1 _ body s
  · refine (opened_handshake_acknowledged 1 _ columns rows s).trans ?_
    rw [initEvents_eq, hbl]
    rfl

/-! ## Operations that retry their opening start -/

theorem exec_startWait_of_pass (address : Byte) (hr : s.ffReady = true) (hb : s.busOpen = false) :
    exec (.startWait address) s = attempt address 0 .hostStart (s.setResult .notValid) := by
  simp only [exec, execStartWait]
  rw [guarded_of_pass ((startChecks_pass s).2 ⟨hr, hb⟩)]

/-- Settles O43: the attempts are made from the state with the registers written before the opening
start, which changes neither the answers nor the events of the failed ones. -/
theorem operationRetriesUntilAcknowledged : Obligations.OperationRetriesUntilAcknowledged := by
  intro f s hleft hnack hack
  have hleft' : s.AttemptsLeft (0 + f) := f.zero_add.symm ▸ hleft
  refine ⟨fun address hr hb => ?_, fun i d body hi hs => ?_, fun columns rows hs => ?_⟩
  · obtain ⟨t, ht, hrun⟩ := attempt_retries (s := s.setResult .notValid) address .hostStart
      hleft' hnack hack
    refine ⟨t, (exec_startWait_of_pass address hr hb).trans ht, hrun.trans ?_⟩
    rw [opened_hostStart_acknowledged]
    rfl
  · obtain ⟨t, ht, hrun⟩ := attempt_retries (s := (s.setResult .notValid).setDs d)
      (deviceAddress s.cfg) (.bracket body) hleft' hnack hack
    refine ⟨t, (exec_of_bracketOf hi hs).trans ht, hrun.trans ?_⟩
    obtain ⟨-, -, hb⟩ := hs
    rw [opened_bracket_acknowledged, ← hb]
    rfl
  · obtain ⟨t, ht, hrun⟩ := attempt_retries
      (s := ((s.setResult .notValid).setDs { s.ds with backlightOn := true }).emits
        [.w Config.tPower]) (deviceAddress s.cfg) (.handshake columns rows) hleft' hnack hack
    refine ⟨t, (exec_lcdInit_of_ready hs).trans ht, hrun.trans ?_⟩
    rw [opened_handshake_acknowledged, initEvents_eq]
    refine congrArg Host.Outcome.next ?_
    apply State.ext <;> simp [Config.tPower, deviceAddress, Nat.add_assoc]
    case ds => rfl
    case nackSeen => rfl

/-! ## START_WAIT at its first attempt and at its last (R112) -/

/-- Settles O9: no failed attempt before the acknowledged one. -/
theorem startWaitAcknowledged : Obligations.StartWaitAcknowledged := by
  intro address s hr hb hk
  rw [exec_startWait_of_pass address hr hb, attempt_of_ack _ _ _ _ (by exact hk)]
  exact congrArg Host.Outcome.next
    (opened_hostStart_acknowledged 1 [.s, .a address .ack] (s.setResult .notValid))

/-- Settles O10: the failed attempt is one that leaves more. -/
theorem startWaitEntersTheRetryLoop : Obligations.StartWaitEntersTheRetryLoop := by
  intro address s hr hb hk hleft
  rw [exec_startWait_of_pass address hr hb,
    attempt_of_nack_left _ _ _ _ (by exact hk)
      (exhausted_of_left (s.setResult .notValid) 1 hleft)]
  refine congrArg Host.Outcome.next ?_
  apply State.ext <;> simp [State.nackAmong_zero]

/-- The last attempt of START_WAIT, not acknowledged: failure, with the bus closed. -/
theorem attempt_hostStart_of_nack_last {failed m : Nat} (address : Byte)
    (hm : s.cfg.maxAttempts = some m) (hlast : m ≤ failed + 1) (hstop : s.cfg.retryStop = true)
    (hk : s.ack 0 = .nack) :
    attempt address failed .hostStart s = .next
      { s.after [.s, .a address .nack, .p] 1 1 (.status false) with seq := .idle } := by
  rw [attempt_of_nack_last s address failed .hostStart hk (exhausted_of_le m hm hlast) hstop]
  refine congrArg Host.Outcome.next ?_
  apply State.ext <;> simp [State.nackAmong_zero]

/-- Settles O45: the last attempt in the loop and the first that is the last. -/
theorem startWaitGivesUpWithFailure : Obligations.StartWaitGivesUpWithFailure := by
  refine ⟨fun s address failed m hs _ hm hlast hstop hk => ?_,
    fun address s m hr hb hm hlast hstop hk => ?_⟩
  · exact (step_of_startWait hs).trans (attempt_hostStart_of_nack_last address hm hlast hstop hk)
  · exact (exec_startWait_of_pass address hr hb).trans
      (attempt_hostStart_of_nack_last (s := s.setResult .notValid) address hm hlast hstop hk)

end Sys2Proof.Machine
end

section
/-! PROOFS. The grammar of the bus (R118): every operation appends events that lead from the phase
its flags stand for to the phase they stand for after it. -/

namespace Sys2Proof.Machine

variable {s t u : State} {i : Instr}

/-! ## Where the flags say the trace stands (R22, R23) -/

theorem phase_of_open (h : s.busOpen = true) : s.phase = .opened := by simp [State.phase, h]

theorem phase_of_ready (hr : s.ffReady = true) (hb : s.busOpen = false) : s.phase = .closed := by
  simp [State.phase, hr, hb]

/-- A configuration may be sent wherever no transaction is open, before the first one too (R110). -/
theorem phase_run_cfg (hz : Hz) (hb : s.busOpen = false) :
    s.phase.run [.cfg hz] = some .closed := by
  cases hr : s.ffReady <;> simp [State.phase, hr, hb]

/-! Giving up an operation leaves the trace and the owner of the bus alone. -/

@[simp] theorem abandoned_trace (after : After) (s : State) :
    (abandoned after s).trace = s.trace := by
  cases after <;> rfl

@[simp] theorem abandoned_busOpen (after : After) (s : State) :
    (abandoned after s).busOpen = s.busOpen := by
  cases after <;> rfl

/-! ## Events that keep to the grammar -/

/-- From `s` to `t` the trace grew by events that lead from where the flags of `s` say it stands to
where those of `t` say it. -/
def KeepsGrammar (s t : State) : Prop :=
  ∃ es, t.trace = s.trace ++ es ∧ s.phase.run es = some t.phase

namespace KeepsGrammar

/-- What this is for. -/
theorem busGrammar (h : KeepsGrammar s t) (hs : s.BusGrammar) : t.BusGrammar := by
  obtain ⟨es, htrace, hrun⟩ := h
  show Phase.run .unconfigured t.trace = some t.phase
  rw [htrace, Phase.run_append, hs]
  exact hrun

theorem trans (h : KeepsGrammar s t) (h' : KeepsGrammar t u) : KeepsGrammar s u := by
  obtain ⟨es, htrace, hrun⟩ := h
  obtain ⟨fs, htrace', hrun'⟩ := h'
  exact ⟨es ++ fs, by rw [htrace', htrace, List.append_assoc],
    by rw [Phase.run_append, hrun]; exact hrun'⟩

/-- No event, and the flags as they were. -/
theorem of_silent (htrace : t.trace = s.trace) (hphase : t.phase = s.phase) : KeepsGrammar s t :=
  ⟨[], by rw [htrace, List.append_nil], congrArg some hphase.symm⟩

/-- Events between two phases that the flags are known to stand for. -/
theorem of_run {es : List Event} {ph ph' : Phase} (hs : s.phase = ph) (ht : t.phase = ph')
    (htrace : t.trace = s.trace ++ es) (hrun : ph.run es = some ph') : KeepsGrammar s t :=
  ⟨es, htrace, by rw [hs, ht, hrun]⟩

/-- Events inside a transaction that stays open. -/
theorem of_open {es : List Event} (hs : s.busOpen = true) (ht : t.busOpen = true)
    (htrace : t.trace = s.trace ++ es) (hrun : Phase.opened.run es = some .opened) :
    KeepsGrammar s t :=
  of_run (phase_of_open hs) (phase_of_open ht) htrace hrun

/-! ## The retrying start (R112) -/

/-- What follows an acknowledged start leaves the transaction open (START_WAIT) or ends it. -/
theorem opened (after : After) (hr : s.ffReady = true) (hb : s.busOpen = true) :
    KeepsGrammar s (opened after s) := by
  cases after with
  | hostStart => exact of_silent rfl rfl
  | bracket body =>
    rw [opened_bracket_eq]
    exact of_run (phase_of_open hb) (phase_of_ready hr rfl) rfl (by simp)
  | handshake columns rows =>
    show KeepsGrammar s (handshake columns rows s)
    rw [handshake_eq]
    exact of_run (phase_of_open hb) (phase_of_ready hr rfl) rfl (by simp)

/-- An attempt ends with the stop of `RETRY_STOP`, or opens the transaction of all that follows. -/
theorem of_attempt {address : Byte} {failed : Nat} {after : After} (hstop : s.cfg.retryStop = true)
    (hr : s.ffReady = true) (hb : s.busOpen = false)
    (h : attempt address failed after s = .next t) : KeepsGrammar s t := by
  have hclosed := phase_of_ready hr hb
  obtain ⟨-, rfl⟩ | ⟨-, -, rfl⟩ | ⟨-, -, -, rfl⟩ := attempt_cases h
  · refine trans ?_ (opened after hr rfl)
    exact of_run hclosed (phase_of_open rfl) rfl (by simp)
  · rw [retryStop_eq, State.emits_emits]
    exact of_run hclosed (phase_of_ready hr hb) rfl (by simp [retryEvents, hstop])
  · exact of_run (es := [.s, .a address .nack, .p]) hclosed
      (phase_of_ready (by simpa using hr) (by simpa using hb)) (by simp) (by simp)

/-! ## Instructions and steps -/

/-- An instruction that is not refused, the bus configured before it but for FF_INIT (R190). -/
theorem of_did (h : Did i u t) (hstop : u.cfg.retryStop = true)
    (hready : (∀ hz, i ≠ .ffInit hz) → u.ffReady = true)
    (hclosed : (∃ hz, i = .ffInit hz) → u.busOpen = false) : KeepsGrammar u t := by
  cases h with
  | configured hz hi ht =>
    have hb := hclosed ⟨hz, hi⟩
    subst ht
    exact of_run rfl (phase_of_ready rfl hb) rfl (phase_run_cfg hz hb)
  | started address r hi hb ht =>
    have hr := hready fun hz hff => by obtain ⟨_, rfl⟩ | ⟨_, _, rfl⟩ := hi <;> cases hff
    rw [ht, busStart_eq]
    exact of_run (phase_of_ready hr hb) (phase_of_open rfl) rfl (by simp)
  | restarted address r hb ht =>
    rw [ht, busRepStart_eq]
    exact of_open hb hb rfl (by simp)
  | hasRead ack r hb ht =>
    subst ht
    exact of_open hb hb rfl (by simp)
  | stopped hi hb ht =>
    have hr := hready fun hz hff => by cases hi.symm.trans hff
    subst ht
    exact of_run (phase_of_open hb) (phase_of_ready hr rfl) rfl (by simp)
  | wrote b r hb ht =>
    rw [ht, busWrite_eq]
    exact of_open hb hb rfl (by simp)
  | pushed x hb ht =>
    rw [ht, push_eq]
    exact of_open hb hb rfl (by simp)
  | sent body hb ht =>
    rw [ht, sendAll_eq]
    exact of_open hb hb rfl (by simp)
  | waited address hi hr hb ht => exact of_attempt hstop hr hb ht
  | initialised columns rows hi hg hr hb ht =>
    have hwait : KeepsGrammar u ((u.setDs { u.ds with backlightOn := true }).wait Config.tPower) :=
      of_run (phase_of_ready hr hb) (phase_of_ready hr hb) rfl (by simp)
    exact hwait.trans (of_attempt hstop hr hb ht)
  | bracketed body d hi hr hv hb hd ht =>
    have hwrite : KeepsGrammar u (u.setDs d) := of_silent rfl rfl
    exact hwrite.trans (of_attempt hstop hr hb ht)

theorem of_exec (hstop : s.cfg.retryStop = true) (h : exec i s = .next t) : KeepsGrammar s t := by
  obtain ⟨r, -, rfl⟩ | ⟨hc, hd⟩ := exec_cases h
  · exact of_silent rfl rfl
  · have haccept : KeepsGrammar s (s.setResult .notValid) := of_silent rfl rfl
    refine haccept.trans (of_did hd hstop (ready_of_pass hc) ?_)
    rintro ⟨hz, rfl⟩
    simpa [firstFailing_eq_none, checksOf, closedCheck] using hc

end KeepsGrammar

/-- Settles O58: every step appends events that keep to the grammar; in the retry loop the invariant
says that the bus is configured and closed. -/
theorem stepKeepsTheBusGrammar : Obligations.StepKeepsTheBusGrammar := by
  intro s t hstop hinv hs h
  refine KeepsGrammar.busGrammar ?_ hs
  have hidle (rest : List PortRecord) : KeepsGrammar s ((s.setPort rest).setSeq .idle) :=
    .of_silent rfl rfl
  cases step_cases h with
  | tried address failed after hseq ht =>
    obtain ⟨-, hq⟩ := State.inv_iff.1 hinv
    simp only [State.SeqLegal, hseq] at hq
    obtain ⟨hr, hb, -, -⟩ := hq
    exact .of_attempt hstop hr hb ht
  | waited ht => exact ht ▸ .of_silent rfl rfl
  | ran i rest ht => exact (hidle rest).trans (.of_exec hstop ht)
  | reserved rest ht => exact ht ▸ (hidle rest).trans (.of_silent rfl rfl)

end Sys2Proof.Machine
end

section
/-! PROOFS. The nibble operations inside the open transaction (R130 to R133): one push, or the two
pushes of a controller byte. -/

namespace Sys2Proof.Machine

variable {s : State}

/-- A controller byte in the open transaction, its checks passed: a push of each of its two
operands. -/
theorem raw_sendByte_of_pass (b : CtlByte) (hr : s.ffReady = true) (hv : s.dsValid = true)
    (hb : s.busOpen = true) :
    raw s (sendByte b) = .next
      (s.after
        (pushEvents s.cfg s.ds.backlightOn (pushOperands b).1 (s.ack 0) (s.ack 1)
          ++ pushEvents s.cfg s.ds.backlightOn (pushOperands b).2 (s.ack 2) (s.ack 3))
        0 4 .notValid) := by
  rw [raw_of_pass (sendByte b) hr hv hb, sendByte_eq]
  simp only [bytesEvents, List.append_nil]
  rfl

/-- Settles O16: `pushEvents` has both values of the parameter, so the push's closed form is the
statement. -/
theorem pushForEitherBacklightParameter : Obligations.PushForEitherBacklightParameter :=
  fun _ _ hr hv hb => raw_push_of_pass hr hv hb rfl

/-- Settles O17: CMD4 sends its byte as a command. -/
theorem cmd4SendsTwoNibbles : Obligations.Cmd4SendsTwoNibbles :=
  fun cmd _ hr hv hb => raw_sendByte_of_pass (.command cmd) hr hv hb

/-- Settles O18: CMD8 is a push of the high nibble. -/
theorem cmd8SendsTheHighNibble : Obligations.Cmd8SendsTheHighNibble :=
  fun _ _ hr hv hb => raw_push_of_pass hr hv hb rfl

/-- Settles O19: WRITE sends its byte as data, whose operands have RS set. -/
theorem writeSendsTwoDataNibbles : Obligations.WriteSendsTwoDataNibbles :=
  fun c _ hr hv hb => raw_sendByte_of_pass (.data c) hr hv hb

end Sys2Proof.Machine
end


section
/-! PROOFS. LCD_INIT (R140): its opening start acknowledged at once, and not acknowledged with
attempts left. -/

namespace Sys2Proof.Machine

/-- Settles O20: the closed form of LCD_INIT acknowledged at once. -/
theorem lcdInitRunsTheHandshake : Obligations.LcdInitRunsTheHandshake :=
  fun _ _ _ hr hb h1 h4 hc hk => exec_lcdInit_of_ack hk ⟨hr, hb, h1, h4, hc⟩

/-- Settles O21: step 1 leaves the answers and the attempts as they were, and the failed attempt is
one that leaves more. -/
theorem lcdInitWaitsInItsOpeningStart : Obligations.LcdInitWaitsInItsOpeningStart := by
  intro columns rows s hs hk hleft
  rw [exec_lcdInit_of_ready hs, openDisplay,
    attempt_of_nack_left _ _ _ _ (by exact hk) (exhausted_of_left _ 1 (by exact hleft))]
  refine congrArg Host.Outcome.next ?_
  apply State.ext <;> simp [State.nackAmong_zero, Config.tPower, deviceAddress]

end Sys2Proof.Machine
end


section
/-! PROOFS. The command operations (R151 to R160). A bracketed one is what `bracketOf` says of it, so
its opening start acknowledged at once, or not acknowledged, is settled for all of them together; a
cursor placement has its command wherever there is a row offset to read. -/

namespace Sys2Proof.Machine

variable {s : State} {i : Instr} {v : Bool} {bit col row : Byte}

/-! ## Cursor placement (R152) -/

/-- The converse of `bracketOf_setCursor`: where the clamped row has an offset, `bracketOf` knows the
placement. -/
theorem bracketOf_setCursor_of_row (r : Fin 4) (hc : 1 ≤ s.ds.columnCount.toNat)
    (hr : r.val + 1 = min (max row.toNat 1) s.ds.lineCount.toNat) :
    s.bracketOf (.setCursor col row) = some (s.ds,
      [.command (s.cfg.cmdSetDdramAddr |||
        (BitVec.ofNat 8 (min (max col.toNat 1) s.ds.columnCount.toNat - 1)
          + s.ds.rowOffsets[r]))]) := by
  obtain ⟨c, hcol⟩ : ∃ c, min (max col.toNat 1) s.ds.columnCount.toNat = c + 1 :=
    ⟨_, (Nat.sub_add_cancel (by omega)).symm⟩
  simp [State.bracketOf, hcol, ← hr]

/-- Settles O24: the placement as a bracketed operation acknowledged at once. -/
theorem setCursorSendsTheClampedAddress : Obligations.SetCursorSendsTheClampedAddress :=
  fun _ _ _ r hr hv hb hk hc hrow =>
    exec_bracketOf_of_ack hk (bracketOf_setCursor_of_row r hc hrow) ⟨hr, hv, hb⟩

/-- Settles O25: the same address, sent as one command in the open transaction. -/
theorem setCursorRawSendsTheClampedAddress : Obligations.SetCursorRawSendsTheClampedAddress := by
  intro col row s r hr hv hb hc hrow
  rw [exec_setCursorRaw_of_pass hr hv hb (cursorAddress_eq s.ds col row r hc hrow), cmd4_eq]
  rfl

/-- Settles O26: a row clamped into the legal line count is one of the four that have an offset. -/
theorem legalRegistersGiveACursorAddress : Obligations.LegalRegistersGiveACursorAddress := by
  intro p d col row ⟨hcol, hline, hline4, _⟩
  have hrow : min (max row.toNat 1) d.lineCount.toNat - 1 + 1
      = min (max row.toNat 1) d.lineCount.toNat := Nat.sub_add_cancel (by omega)
  exact ⟨_, cursorAddress_eq d col row ⟨_, by omega⟩ hcol hrow⟩

/-! ## The toggles (R154) -/

/-- DISPLAY, CURSOR and BLINK write their own bit of `controlFlags` and send it whole. -/
theorem bracketOf_controlToggle
    (hi : (i, bit) ∈ [(Instr.display v, s.cfg.displayOn), (.cursor v, s.cfg.cursorOn),
      (.blink v, s.cfg.blinkOn)]) :
    s.bracketOf i = some ({ s.ds with controlFlags := flagWritten s.ds.controlFlags bit v },
      [.command (s.cfg.cmdDisplayControl ||| flagWritten s.ds.controlFlags bit v)]) := by
  simp only [List.mem_cons, Prod.mk.injEq, List.not_mem_nil, or_false] at hi
  obtain ⟨rfl, rfl⟩ | ⟨rfl, rfl⟩ | ⟨rfl, rfl⟩ := hi <;> rfl

/-- DIRECTION and AUTOSHIFT write their own bit of `entryModeFlags` and send it whole. -/
theorem bracketOf_entryModeToggle
    (hi : (i, bit) ∈ [(Instr.direction v, s.cfg.leftEntry),
      (.autoshift v, s.cfg.shiftIncrement)]) :
    s.bracketOf i = some ({ s.ds with entryModeFlags := flagWritten s.ds.entryModeFlags bit v },
      [.command (s.cfg.cmdEntryModeSet ||| flagWritten s.ds.entryModeFlags bit v)]) := by
  simp only [List.mem_cons, Prod.mk.injEq, List.not_mem_nil, or_false] at hi
  obtain ⟨rfl, rfl⟩ | ⟨rfl, rfl⟩ := hi <;> rfl

/-! ## Brackets acknowledged at once (R150) -/

/-- Settles O23: CLEAR as a bracketed operation. -/
theorem clearSendsClearDisplay : Obligations.ClearSendsClearDisplay :=
  fun _ hr hv hb hk => exec_bracketOf_of_ack (i := .clear) hk rfl ⟨hr, hv, hb⟩

/-- Settles O27: each toggle is a bracketed operation acknowledged at once. -/
theorem controlTogglesResendTheRegister : Obligations.ControlTogglesResendTheRegister :=
  fun _ _ _ _ hr hv hb hk hi =>
    exec_bracketOf_of_ack hk (bracketOf_controlToggle hi) ⟨hr, hv, hb⟩

/-- Settles O28: each toggle is a bracketed operation acknowledged at once. -/
theorem entryModeTogglesResendTheRegister : Obligations.EntryModeTogglesResendTheRegister :=
  fun _ _ _ _ hr hv hb hk hi =>
    exec_bracketOf_of_ack hk (bracketOf_entryModeToggle hi) ⟨hr, hv, hb⟩

/-- Settles O30: the bytes of a bracket carry the backlight it leaves, and that is the operand. -/
theorem backlightResendsDisplayControl : Obligations.BacklightResendsDisplayControl :=
  fun v _ hr hv hb hk => exec_bracketOf_of_ack (i := .backlight v) hk rfl ⟨hr, hv, hb⟩

/-! ## A bracket whose opening start is not acknowledged (R112) -/

/-- Settles O31: the register is written before the opening start, whose failed attempt leaves
more. -/
theorem bracketedOperationWritesBeforeItsStart :
    Obligations.BracketedOperationWritesBeforeItsStart := by
  intro i d body s h hs hk hleft
  rw [exec_of_bracketOf h hs, openDisplay,
    attempt_of_nack_left _ _ _ _ (by exact hk) (exhausted_of_left _ 1 (by exact hleft))]
  refine congrArg Host.Outcome.next ?_
  apply State.ext <;> simp [State.nackAmong_zero, deviceAddress]

end Sys2Proof.Machine
end


section
/-! PROOFS. The text and glyph operations (R170 to R172), brackets acknowledged at once: what is left
to say of each is the bytes it sends and how many they are. -/

namespace Sys2Proof.Machine

variable {s : State} {str text bitmap : List Byte}

/-- PRINT of a string is a bracket around its printed bytes, each sent as data. -/
theorem exec_print_of_ack (htext : printed s.cfg.terminator str = text) (hs : s.BracketReady)
    (hk : s.ack 0 = .ack) :
    exec (.print str) s = .next
      ((s.after (bracketEvents s.cfg s.ds.backlightOn s.ack (text.map .data)) 1
        (1 + 4 * text.length) .notValid).setSeq .idle) := by
  have hbody : s.bracketOf (.print str) = some (s.ds, text.map .data) :=
    congrArg (fun l => some (s.ds, List.map CtlByte.data l)) htext
  rw [exec_bracketOf_of_ack hk hbody hs, List.length_map]
  rfl

/-- Settles O32: either string has `text` as its printed bytes. -/
theorem printSendsUpToTheTerminator : Obligations.PrintSendsUpToTheTerminator := by
  intro text rest s hr hv hb hk hterm
  obtain ⟨hall, hcut⟩ := printed_eq s.cfg.terminator text rest hterm
  exact ⟨exec_print_of_ack hall ⟨hr, hv, hb⟩ hk, exec_print_of_ack hcut ⟨hr, hv, hb⟩ hk⟩

/-- Settles O33: PRINTCHAR as a bracketed operation; nothing looks at its byte. -/
theorem printCharSendsOneDataByte : Obligations.PrintCharSendsOneDataByte :=
  fun c _ hr hv hb hk => exec_bracketOf_of_ack (i := .printChar c) hk rfl ⟨hr, hv, hb⟩

/-- CREATECHAR of eight rows is a bracket around the slot's address and the masked rows. -/
theorem bracketOf_createChar_of_length (location : Byte) (hlen : bitmap.length = 8) :
    s.bracketOf (.createChar location bitmap) = some (s.ds,
      .command (s.cfg.cmdSetCgramAddr ||| ((location &&& 0x07#8) <<< 3))
        :: bitmap.map fun row => .data (row &&& 0x1F#8)) := by
  simp [State.bracketOf, hlen]

/-- Settles O34: the address byte of the start and nine controller bytes draw 37 answers. -/
theorem createCharSendsEightRows : Obligations.CreateCharSendsEightRows := by
  intro location bitmap s hr hv hb hk hlen
  rw [exec_bracketOf_of_ack hk (bracketOf_createChar_of_length location hlen) ⟨hr, hv, hb⟩,
    List.length_cons, List.length_map, hlen]
  rfl

end Sys2Proof.Machine
end

section
/-! PROOFS. Refusals (R188, R190): the checks an operation makes, in their order, are the reasons of
R190's table in R188's order, so the first check that fails is the first reason raised. -/

namespace Sys2Proof.Machine

variable {s t : State} {i : Instr}

/-! ## The checks are the table -/

/-- A check after another is made where that one holds. -/
theorem firstFailing_cons (holds : Bool) (r : Reason) (rest : List Check) :
    firstFailing ((holds, r) :: rest) = if holds then firstFailing rest else some r := rfl

/-- The first reason raised is the first failing check of the list that checks each reason. -/
theorem find?_eq_firstFailing (raised : Reason → Bool) (reasons : List Reason) :
    reasons.find? raised = firstFailing (reasons.map fun r => (!raised r, r)) := by
  induction reasons with
  | nil => rfl
  | cons r rest ih => cases h : raised r <;> simp [h, ih]

/-- LCD_INIT's check fails exactly where its row of the table raises `BadGeometry` (R140, R190). -/
theorem geometryOk_eq_not_raises (s : State) (columns rows : Byte) :
    geometryOk columns rows = !s.raises (.lcdInit columns rows) .badGeometry := by
  rw [Bool.eq_iff_iff, geometryOk_iff]
  simp [State.raises]
  omega

/-- An operation's checks report what the table does: a reason it never raises is none of them,
and the others stand in the fixed order (R188, R190). -/
theorem firstFailing_checksOf (s : State) (hi : i.isHostOp = true) :
    firstFailing (checksOf s i) = s.reported i := by
  rw [State.reported, find?_eq_firstFailing]
  cases i with
  | lcdInit columns rows =>
    simp [checksOf, firstFailing_cons, geometryOk_eq_not_raises s, State.raises, readyCheck,
      closedCheck, Instr.isRaw, Instr.isBracketed, Instr.needsOpen]
  | xb | hcClear | hcEntryMode | hcDispCtrl | hcFuncSet | hcSetCgram | hcSetDdram | hd | ab =>
    cases hi
  | _ =>
    simp [checksOf, firstFailing_cons, startChecks, openChecks, rawChecks, bracketChecks,
      readyCheck, initCheck, closedCheck, openCheck, bitmapOk, Config.glyphRows, State.raises,
      Instr.isRaw, Instr.isBracketed, Instr.needsOpen, bne]

/-- Settles O39: the reported reason is the first check that fails. -/
theorem wrongUseIsRefusedByTheFirstReason : Obligations.WrongUseIsRefusedByTheFirstReason :=
  fun _ s _ hi hr => exec_of_fail ((firstFailing_checksOf s hi).trans hr)

/-! ## An accepted operation is not refused later -/

/-- An attempt and what follows it leave the ghost bit of refusals and the reason. -/
theorem attempt_keeps_refusal {address : Byte} {failed : Nat} {after : After}
    (h : attempt address failed after s = .next t) :
    t.refused = s.refused ∧ t.refusal = s.refusal := by
  cases after with
  | hostStart | bracket =>
    have ht := Traffic.of_attempt (by simp) h
    exact ⟨ht.refused, ht.refusal⟩
  | handshake columns rows =>
    obtain ⟨-, rfl⟩ | ⟨-, -, rfl⟩ | ⟨-, -, -, rfl⟩ := attempt_cases h
    · simp [opened, handshake_eq]
    · simp [retryStop_eq]
    · simp

/-- What an instruction does once its checks have passed refuses nothing. -/
theorem Effect.keeps_refusal (h : Effect i s t) :
    t.refused = s.refused ∧ t.refusal = s.refusal := by
  cases h with
  | configured hz hi ht => subst ht; exact ⟨rfl, rfl⟩
  | traffic hb ht hs => exact ⟨ht.refused, ht.refusal⟩
  | waited address hr hb ht => exact attempt_keeps_refusal ht
  | initialised columns rows hi hg hr hb ht => exact (attempt_keeps_refusal ht :)
  | bracketed body d hr hv hb hd ht => exact (attempt_keeps_refusal ht :)

/-- Settles O40: no check fails, and nothing behind the checks refuses. -/
theorem legalUseIsNotRefused : Obligations.LegalUseIsNotRefused := by
  intro i s t hi hr h
  obtain ⟨r, hfail, -⟩ | ⟨-, hdid⟩ := exec_cases h
  · rw [firstFailing_checksOf s hi, hr] at hfail
    cases hfail
  · exact hdid.effect.keeps_refusal

end Sys2Proof.Machine
end

section
/-! PROOFS. A retrying start that is not acknowledged (R112): for ever under unbounded attempts
(R192), and up to the fault of a driver operation under a finite `MAX_ATTEMPTS` (R186). -/

namespace Sys2Proof.Machine

variable {s : State}

/-! ## Unbounded attempts -/

/-- Settles O41: by induction on the answers; each is a step that waits on, one failed attempt
more. -/
theorem unansweredStartRepeatsForEver : Obligations.UnansweredStartRepeatsForEver := by
  intro n
  induction n with
  | zero =>
    intro s address failed after hs _ _
    refine congrArg Host.Outcome.next ?_
    apply State.ext <;> simp [failedAttempts, hs]
  | succ n ih =>
    intro s address failed after hs hm hk
    have hleft : exhausted s.cfg (failed + 1) = false :=
      exhausted_of_left s _ fun m hsome => by simp [hm] at hsome
    have hstep := (step_of_startWait hs).trans
      (attempt_of_nack_left s address failed after (hk 0 n.succ_pos) hleft)
    have hrun := ih (((s.drawAcks 1).emits ([.s, .a address .nack] ++ retryEvents s.cfg)).setSeq
      (.startWait address (failed + 1) after)) address (failed + 1) after rfl hm
      fun j hj => by simpa using hk (1 + j) (by omega)
    rw [run_succ_of_next n hstep, hrun]
    refine congrArg Host.Outcome.next ?_
    apply State.ext <;> simp [failedAttempts_succ]
    case seq => omega
    case env => omega

/-! ## The last attempt of a driver operation -/

/-- The last attempt of a driver operation, not acknowledged: the run is faulted where it stands. -/
theorem attempt_driver_of_nack_last {failed m : Nat} {after : After} (address : Byte)
    (hafter : after ≠ .hostStart) (hm : s.cfg.maxAttempts = some m) (hlast : m ≤ failed + 1)
    (hstop : s.cfg.retryStop = true) (hk : s.ack 0 = .nack) :
    attempt address failed after s = .next
      { s.after [.s, .a address .nack, .p] 1 1 s.result with seq := .faulted } := by
  obtain ⟨hhost, -⟩ | ⟨-, hfaulted⟩ := abandoned_cases
    ((s.drawAcks 1).emits [.s, .a address .nack, .p]) after
  · exact absurd hhost hafter
  rw [attempt_of_nack_last s address failed after hk (exhausted_of_le m hm hlast) hstop, hfaulted]
  refine congrArg Host.Outcome.next ?_
  apply State.ext <;> simp [State.nackAmong_zero]

/-- A faulted run stays faulted (R186). -/
theorem step_of_faulted (hs : s.seq = .faulted) : step s = .fault .deviceUnresponsive := by
  simp [step, hs]

/-- Settles O44: the last attempt of the loop, and the first that is the last, made from the state
with the registers written before the opening start. -/
theorem driverOperationFaultsWhenAttemptsRunOut :
    Obligations.DriverOperationFaultsWhenAttemptsRunOut := by
  refine ⟨fun s address failed m after hs hafter hm hlast hstop hk => ?_,
    fun i d body s m hi hs hm hlast hstop hk => ?_,
    fun columns rows s m hs hm hlast hstop hk => ?_, fun _ => step_of_faulted⟩
  · exact (step_of_startWait hs).trans
      (attempt_driver_of_nack_last address hafter hm hlast hstop hk)
  · exact (exec_of_bracketOf hi hs).trans
      (attempt_driver_of_nack_last (s := (s.setResult .notValid).setDs d) (deviceAddress s.cfg)
        (by simp) hm hlast hstop hk)
  · refine ((exec_lcdInit_of_ready hs).trans (attempt_driver_of_nack_last
      (s := ((s.setResult .notValid).setDs { s.ds with backlightOn := true }).emits
        [.w Config.tPower]) (deviceAddress s.cfg) (by simp) hm hlast hstop hk)).trans ?_
    refine congrArg Host.Outcome.next ?_
    apply State.ext <;> simp [State.nackAmong_zero, Config.tPower, deviceAddress]

end Sys2Proof.Machine
end

section
/-! PROOFS. The answers after an operation's opening start (R183): two states that differ in what
the slave answers stay alike under everything a nibble or driver operation does. -/

namespace Sys2Proof.Machine

variable {s t : State}

/-- The block holds the same and has sent the same in both states, whatever it was answered. The
registers of the frame formatter, the port, the ghost bits and the environment are left open. -/
structure Alike (s t : State) : Prop where
  cfg : s.cfg = t.cfg
  ds : s.ds = t.ds
  dsValid : s.dsValid = t.dsValid
  busOpen : s.busOpen = t.busOpen
  seq : s.seq = t.seq
  result : s.result = t.result
  trace : s.trace.map Event.sent = t.trace.map Event.sent

namespace Alike

/-- Two environments. -/
theorem of_env (s : State) (e : Env) : Alike s { s with env := e } :=
  ⟨rfl, rfl, rfl, rfl, rfl, rfl, rfl⟩

/-! ## Updates -/

theorem sent (h : Alike s t) {es fs : List Event} (n : Nat)
    (hsent : es.map Event.sent = fs.map Event.sent) : Alike (s.sent n es) (t.sent n fs) :=
  ⟨h.cfg, h.ds, h.dsValid, h.busOpen, h.seq, h.result, by simp [h.trace, hsent]⟩

theorem emits (h : Alike s t) (es : List Event) : Alike (s.emits es) (t.emits es) :=
  ⟨h.cfg, h.ds, h.dsValid, h.busOpen, h.seq, h.result, by simp [h.trace]⟩

theorem setDs (h : Alike s t) (d : DisplayState) : Alike (s.setDs d) (t.setDs d) :=
  ⟨h.cfg, rfl, h.dsValid, h.busOpen, h.seq, h.result, h.trace⟩

theorem setDsValid (h : Alike s t) (v : Bool) : Alike (s.setDsValid v) (t.setDsValid v) :=
  ⟨h.cfg, h.ds, rfl, h.busOpen, h.seq, h.result, h.trace⟩

theorem setBusOpen (h : Alike s t) (v : Bool) : Alike (s.setBusOpen v) (t.setBusOpen v) :=
  ⟨h.cfg, h.ds, h.dsValid, rfl, h.seq, h.result, h.trace⟩

theorem setResult (h : Alike s t) (r : Result) : Alike (s.setResult r) (t.setResult r) :=
  ⟨h.cfg, h.ds, h.dsValid, h.busOpen, h.seq, rfl, h.trace⟩

theorem refuse (h : Alike s t) (r : Reason) : Alike (s.refuse r) (t.refuse r) :=
  ⟨h.cfg, h.ds, h.dsValid, h.busOpen, h.seq, h.result, h.trace⟩

/-- An acknowledged opening start. -/
theorem acknowledged (h : Alike s t) (n : Nat) (es : List Event) :
    Alike (s.acknowledged n es) (t.acknowledged n es) :=
  ⟨h.cfg, h.ds, h.dsValid, rfl, rfl, h.result, (h.emits es).trace⟩

/-! ## Sending -/

theorem push (h : Alike s t) (x : Byte) : Alike (push x s) (push x t) := by
  rw [push_eq, push_eq, h.cfg, h.ds]
  exact h.sent 2 (pushEvents_map_sent ..)

theorem sendAll (h : Alike s t) (body : List CtlByte) :
    Alike (sendAll body s) (sendAll body t) := by
  rw [sendAll_eq, sendAll_eq, h.cfg, h.ds]
  exact h.sent _ (bytesEvents_map_sent ..)

theorem busStop (h : Alike s t) : Alike (busStop s) (busStop t) :=
  (h.emits _).setBusOpen false

theorem handshake (h : Alike s t) (columns rows : Byte) :
    Alike (handshake columns rows s) (handshake columns rows t) := by
  rw [handshake_eq, handshake_eq, h.cfg, h.ds]
  refine (((h.sent 24 ?_).setDs _).setBusOpen false).setDsValid true
  simp only [handshakeEvents, List.map_append, bytesEvents_map_sent _ _ s.ack t.ack]
  rfl

/-- All that follows an acknowledged opening start. -/
theorem opened (h : Alike s t) (after : After) : Alike (opened after s) (opened after t) := by
  cases after with
  | hostStart => exact h.setResult _
  | bracket body => exact (h.sendAll body).busStop
  | handshake columns rows => exact h.handshake columns rows

end Alike

/-! ## Meanings -/

/-- Wherever both meanings answer a next state, the two are alike. -/
def NextAlike (a b : Answer) : Prop :=
  ∀ t t', a = .next t → b = .next t' → Alike t t'

namespace NextAlike

theorem next (h : Alike s t) : NextAlike (.next s) (.next t) := by
  rintro _ _ ⟨⟩ ⟨⟩
  exact h

theorem fault (r : Fault) (b : Answer) : NextAlike (.fault r) b :=
  fun _ _ h => nomatch h

/-- Behind the same checks: refused alike, or run alike. -/
theorem guarded {checks : List Check} {run run' : State → Answer} (h : Alike s t)
    (hrun : NextAlike (run (s.setResult .notValid)) (run' (t.setResult .notValid))) :
    NextAlike (guarded checks s run) (guarded checks t run') := by
  cases hc : firstFailing checks with
  | none => rwa [guarded_of_pass hc, guarded_of_pass hc]
  | some r =>
    rw [guarded_of_fail hc, guarded_of_fail hc]
    exact next (h.refuse r)

/-- An opening start acknowledged in both states. -/
theorem openDisplay (h : Alike s t) (after : After) (hs : s.ack 0 = .ack) (ht : t.ack 0 = .ack) :
    NextAlike (openDisplay after s) (openDisplay after t) := by
  rw [Machine.openDisplay, Machine.openDisplay, attempt_of_ack _ _ _ _ hs,
    attempt_of_ack _ _ _ _ ht, ← h.cfg]
  exact next ((h.acknowledged 1 _).opened after)

end NextAlike

variable {i : Instr} {e : Env}

/-- A bracketed operation opens its own transaction, so it is not a raw one (R218). -/
theorem isRaw_of_isBracketed (hi : i.isBracketed = true) : i.isRaw = false := by
  cases i with
  | push | cmd4 | cmd8 | write | setCursorRaw => cases hi
  | _ => rfl

/-- The nibble operations and SETCURSOR_RAW, under any answers. -/
theorem nextAlike_of_isRaw (s : State) (e : Env) (hi : i.isRaw = true) :
    NextAlike (exec i s) (exec i { s with env := e }) := by
  have h := Alike.of_env s e
  have hu := h.setResult .notValid
  cases i with
  | push x =>
    simp only [exec, execPush, raw]
    exact .guarded h (.next (hu.push x))
  | cmd8 c =>
    simp only [exec, execCmd8, raw]
    exact .guarded h (.next (hu.push _))
  | cmd4 c =>
    simp only [exec, execCmd4, raw]
    exact .guarded h (.next (hu.sendAll [.command c]))
  | write c =>
    simp only [exec, execWrite, raw]
    exact .guarded h (.next (hu.sendAll [.data c]))
  | setCursorRaw col row =>
    simp only [exec, execSetCursorRaw]
    refine .guarded h ?_
    simp only [State.setResult_ds]
    cases cursorAddress s.ds col row with
    | ok address => exact .next (hu.sendAll [.command _])
    | error index => exact .fault _ _
  | _ => cases hi

section
variable (hs : s.ack 0 = .ack) (ht : ({ s with env := e } : State).ack 0 = .ack)
include hs ht

/-- The bracketed operations: the registers written and the bytes sent are those of the state
without its environment. -/
theorem nextAlike_of_isBracketed (hi : i.isBracketed = true) :
    NextAlike (exec i s) (exec i { s with env := e }) := by
  have h := Alike.of_env s e
  have hu := h.setResult .notValid
  cases i with
  | clear | print | printChar | createChar =>
    simp only [exec, execClear, execPrint, execPrintChar, execCreateChar, bracketed]
    exact .guarded h (.openDisplay hu _ hs ht)
  | display | cursor | blink | direction | autoshift | backlight =>
    simp only [exec, execDisplay, execCursor, execBlink, toggleControl, execDirection,
      execAutoshift, toggleEntryMode, execBacklight]
    exact .guarded h (.openDisplay (hu.setDs _) _ hs ht)
  | setCursor col row =>
    simp only [exec, execSetCursor]
    refine .guarded h ?_
    simp only [State.setResult_ds]
    cases cursorAddress s.ds col row with
    | ok address => exact .openDisplay hu _ hs ht
    | error index => exact .fault _ _
  | _ => cases hi

theorem nextAlike_lcdInit (columns rows : Byte) :
    NextAlike (exec (.lcdInit columns rows) s)
      (exec (.lcdInit columns rows) { s with env := e }) := by
  have h := Alike.of_env s e
  simp only [exec, execLcdInit]
  exact .guarded h (.openDisplay (((h.setResult .notValid).setDs _).emits _) _ hs ht)

end

/-- Settles O46: the two next states are alike, for each of the three kinds of operation. -/
theorem answersAfterTheStartAreIgnored : Obligations.AnswersAfterTheStartAreIgnored := by
  intro i s t t' e hi hack h h'
  have hnext : NextAlike (exec i s) (exec i { s with env := e }) := by
    obtain hraw | hbracketed | ⟨columns, rows, rfl⟩ := hi
    · exact nextAlike_of_isRaw s e hraw
    · obtain ⟨hs, ht⟩ := hack (isRaw_of_isBracketed hbracketed)
      exact nextAlike_of_isBracketed hs ht hbracketed
    · obtain ⟨hs, ht⟩ := hack rfl
      exact nextAlike_lcdInit hs ht columns rows
  have halike := hnext t t' h h'
  exact ⟨halike.trace, halike.ds, halike.dsValid, halike.busOpen, halike.seq, halike.result⟩

end Sys2Proof.Machine
end

section
/-! PROOFS. The block before the host asks anything of it (R212, R213), and how long the events of one
LCD_INIT wait (R219, R220, R230): a settling time a push, and the waits of R140's steps 1 and 3. -/

namespace Sys2Proof.Machine

variable {s : State}

/-! ## Reset and the idle block -/

/-- Settles O2: reset gives the trace no event. -/
theorem nothingEmittedAtReset : Obligations.NothingEmittedAtReset := rfl

/-- An idle block that is presented no record waits (R212). -/
theorem step_of_nothing_presented (hs : s.seq = .idle) (hp : s.port = []) : step s = .next s := by
  simp [step, hs, hp]

/-- Settles O5: the step of an idle block that is presented no record. -/
theorem idleBlockWaitsForTheHost : Obligations.IdleBlockWaitsForTheHost :=
  fun _ => step_of_nothing_presented

/-! ## The microseconds events wait (R230) -/

/-- The microseconds that events wait, taken together. -/
def microsOf (events : List Event) : Nat :=
  (events.map Event.micros).sum

@[simp] theorem microsOf_nil : microsOf [] = 0 := rfl

@[simp] theorem microsOf_cons (e : Event) (es : List Event) :
    microsOf (e :: es) = e.micros + microsOf es := by
  simp [microsOf]

@[simp] theorem microsOf_append (es es' : List Event) :
    microsOf (es ++ es') = microsOf es + microsOf es' := by
  simp [microsOf]

/-- A push waits once, for the lines to settle (R130). -/
@[simp] theorem microsOf_pushEvents (p : Params) (bl : Bool) (x : Byte) (k1 k2 : Ack) :
    microsOf (pushEvents p bl x k1 k2) = Config.tSettle := rfl

/-- A controller byte is two pushes (R81). -/
@[simp] theorem microsOf_bytesEvents (p : Params) (bl : Bool) (k : Nat → Ack) (n : Nat)
    (body : List CtlByte) :
    microsOf (bytesEvents p bl k n body) = 2 * Config.tSettle * body.length := by
  induction body generalizing n with
  | nil => rfl
  | cons b rest ih =>
    simp only [bytesEvents, microsOf_append, microsOf_pushEvents, ih, List.length_cons]
    ring

/-- The handshake is four pushes and four commands, so twelve settling times, and the waits after
the first and the second function-set (R140). -/
theorem microsOf_handshakeEvents (p : Params) (bl : Bool) (rows : Byte) (k : Nat → Ack) :
    microsOf (handshakeEvents p bl rows k) =
      12 * Config.tSettle + Config.tReset1 + Config.tReset2 := by
  simp [handshakeEvents, Event.micros, Config.tSettle, Config.tReset1, Config.tReset2]

theorem microsOf_initEvents (p : Params) (rows : Byte) (k : Nat → Ack) :
    microsOf (initEvents p rows k) = 45850 := by
  rw [initEvents_eq]
  simp [microsOf_handshakeEvents, Event.micros, Config.tPower, Config.tSettle, Config.tReset1,
    Config.tReset2]

/-- Settles O22: what LCD_INIT appends, acknowledged at once, is `initEvents`. -/
theorem lcdInitWaitsAddUp : Obligations.LcdInitWaitsAddUp :=
  fun _ rows s h hk => ⟨_, initEvents s.cfg rows s.ack, exec_lcdInit_of_ack hk h, rfl,
    microsOf_initEvents _ _ _⟩

end Sys2Proof.Machine
end
